-- ==== Sys2Proof/Word.lean ====
section
/-! DEFINITION. The words the block and its interface handle (00_scope.md R12, 30_encoding.md R83, R92). -/

namespace Sys2Proof

/-- A byte: 8 bits, 0x00..0xFF (00_scope.md R12). -/
abbrev Byte := BitVec 8

/-- A 7-bit bus address (20_memory.md R61). -/
abbrev Addr7 := BitVec 7

/-- An input event as delivered: its 3-bit code in bits 2..0 of the first byte, the data byte of
RX_BYTE in bits 15..8 (30_encoding.md R81, R83). The places of the bits are the model's. DESIGN CHOICE
(notes/assumptions/2.md), safe. -/
abbrev EventWord := BitVec 16

/-- The 24-bit decode key `KEY` (30_encoding.md R92). -/
abbrev Key := BitVec 24

end Sys2Proof
end

