-- ==== Sys2Proof/Machine/Checksum.lean ====
section
/-! DEFINITION. The Checksum Engine: the CRC-8 Packet Error Code (40_checksum.md). -/

namespace Sys2Proof.Machine

open Sys2Proof

/-- `repeat n times: shift left, and XOR 0x07 if bit 7 was 1` (40_checksum.md R121). -/
def crcShift : Nat → Byte → Byte
  | 0, x => x
  | n + 1, x => crcShift n (if x.msb then (x <<< 1) ^^^ 0x07#8 else x <<< 1)

/-- `crc8_update(c, b)` (40_checksum.md R121). -/
def crc8Update (c b : Byte) : Byte := crcShift 8 (c ^^^ b)

/-- `crc8(seq, c)` with an explicit seed (40_checksum.md R122). -/
def crc8From (c : Byte) (seq : List Byte) : Byte := seq.foldl crc8Update c

/-- `crc8(seq)`, seed 0 (40_checksum.md R122, R123). -/
def crc8 (seq : List Byte) : Byte := crc8From 0x00#8 seq

end Sys2Proof.Machine
end

