-- ==== Sys2Proof/Syntax.lean ====
section
/-! DEFINITION. The instructions: one constructor for each row of spec/opcode_table.json, and the two
formats in which they are written (30_encoding.md). -/

namespace Sys2Proof

/-- One constructor for each row of spec/opcode_table.json. The request rows (30_encoding.md R93) are the
handlers a BUS_GRANT selects by the decode key; their operands are read from the Frame Context, but for
the key bits that the mask of an UNSUPPORTED row leaves open. The event rows (30_encoding.md R81) are the
input events. -/
inductive Instr where
  /-- `CTRL.SET_EID`, Set Endpoint ID (42_control_commands.md R171–R173). -/
  | ctrlSetEid
  /-- `CTRL.GET_EID`, Get Endpoint ID (R174). -/
  | ctrlGetEid
  /-- `CTRL.GET_UUID`, Get Endpoint UUID (R175). -/
  | ctrlGetUuid
  /-- `CTRL.GET_VERSION`, Get Version (R176, R177). -/
  | ctrlGetVersion
  /-- `CTRL.GET_MSG_TYPES`, Get Message-Type Support (R178). -/
  | ctrlGetMsgTypes
  /-- `CTRL.GET_VDM`, Get Vendor-Defined-Message Support (R179, R180). -/
  | ctrlGetVdm
  /-- `CTRL.UNSUPPORTED` (R181), with bits 15..0 of its key. -/
  | ctrlUnsupported (low : BitVec 16)
  /-- `FM.IDENTIFY_SWITCH` (43_fmapi_commands.md R208, R209). -/
  | fmIdentifySwitch
  /-- `FM.GET_PORT_STATE`, Get Physical Port State (R210–R212). -/
  | fmGetPortState
  /-- `FM.PHYS_PORT_CONTROL`, Physical Port Control (R213). -/
  | fmPhysPortControl
  /-- `FM.SEND_PPB_CONFIG`, Send-PPB-Config (R214). -/
  | fmSendPpbConfig
  /-- `FM.UNSUPPORTED` (R215), with bits 15..0 of its key: the command set and the command. -/
  | fmUnsupported (low : BitVec 16)
  /-- `MSG.UNSUPPORTED` (42_control_commands.md R181), with its whole key. -/
  | msgUnsupported (key : Key)
  /-- `EVENT.START_WRITE` (41_ingestion.md R131). -/
  | startWrite
  /-- `EVENT.RX_BYTE` with its data byte (R132). -/
  | rxByte (b : Byte)
  /-- `EVENT.FINISH` (R139). -/
  | finish
  /-- `EVENT.NACK` (R141). -/
  | nack
  /-- `EVENT.START_READ` (R138). -/
  | startRead
  /-- `EVENT.READ_REQ` (R140). -/
  | readReq
  /-- `EVENT.BUS_GRANT` (R142). -/
  | busGrant
  /-- `EVENT.TX_ACK` (R143). -/
  | txAck
deriving DecidableEq, Repr

/-- The word of an instruction, in the format of its row: the rows of spec/opcode_table.json whose
"format" is "event" have an event word, those whose "format" is "request" a decode key. -/
inductive InstrWord where
  | event (w : EventWord)
  | key (k : Key)
deriving DecidableEq, Repr

/-- Whether the instruction is one of the eight input events (30_encoding.md R81). -/
def Instr.isEvent : Instr → Bool
  | .startWrite | .rxByte _ | .finish | .nack | .startRead | .readReq | .busGrant | .txAck => true
  | .ctrlSetEid | .ctrlGetEid | .ctrlGetUuid | .ctrlGetVersion | .ctrlGetMsgTypes | .ctrlGetVdm
  | .ctrlUnsupported _ | .fmIdentifySwitch | .fmGetPortState | .fmPhysPortControl | .fmSendPpbConfig
  | .fmUnsupported _ | .msgUnsupported _ => false

/-- Whether the instruction is BUS_GRANT or a request row: the steps that answer a bus request. -/
def Instr.isGrant (i : Instr) : Bool := decide (i = .busGrant) || !i.isEvent

end Sys2Proof
end

