-- ==== Sys2Proof/WellFormed.lean ====
section
/-! DEFINITION. Which instructions are well formed: an UNSUPPORTED row stands only for the keys that no
earlier row of 30_encoding.md R93 takes ("the first row whose KEY & mask = match selects the handler"). -/

namespace Sys2Proof

/-- Bits 15..0 of the keys that the six supported control rows take: 0x0001..0x0006. -/
def supportedControlLow (low : BitVec 16) : Bool :=
  decide (1 ≤ low.toNat ∧ low.toNat ≤ 6)

/-- Bits 15..0 of the keys that the four Physical Switch rows take: 0x5100..0x5103. -/
def supportedFmLow (low : BitVec 16) : Bool :=
  decide (0x5100 ≤ low.toNat ∧ low.toNat ≤ 0x5103)

/-- The message types whose keys an earlier row takes: 0x00 and 0x07 (30_encoding.md R88). -/
def decodedMsgType (mt : Byte) : Bool :=
  decide (mt = 0x00#8 ∨ mt = 0x07#8)

/-- The well-formedness check, one line for each row that has an operand the table bounds. -/
def Instr.wf : Instr → Bool
  | .ctrlUnsupported low => !supportedControlLow low
  | .fmUnsupported low => !supportedFmLow low
  | .msgUnsupported key => !decodedMsgType (key.extractLsb' 16 8)
  | .ctrlSetEid | .ctrlGetEid | .ctrlGetUuid | .ctrlGetVersion | .ctrlGetMsgTypes | .ctrlGetVdm
  | .fmIdentifySwitch | .fmGetPortState | .fmPhysPortControl | .fmSendPpbConfig
  | .startWrite | .rxByte _ | .finish | .nack | .startRead | .readReq | .busGrant | .txAck => true

end Sys2Proof
end

