-- ==== Sys2Proof/Decode.lean ====
section
/-! DEFINITION. Decoding and encoding (30_encoding.md R81, R92, R93). Every event code and every key has an
instruction; a byte string of another length is rejected by name. -/

namespace Sys2Proof

/-- Why a byte string is no instruction: it is neither an event (two bytes) nor a key (three bytes). -/
inductive DecodeRefusal where
  | noSuchLength (bytes : Nat)
deriving DecidableEq, Repr

/-- The input events (30_encoding.md R81): the code is bits 2..0, the data byte of RX_BYTE is bits 15..8.
Bits 7..3, and the data byte of the other events, are not looked at (the table's mask is 7).
DESIGN CHOICE (notes/assumptions/2.md), safe. -/
def decodeEvent (w : EventWord) : Instr :=
  match (w.extractLsb' 0 3).toNat with
  | 0 => .startWrite
  | 1 => .rxByte (w.extractLsb' 8 8)
  | 2 => .finish
  | 3 => .nack
  | 4 => .startRead
  | 5 => .readReq
  | 6 => .busGrant
  | _ => .txAck

/-- The opcode map of 30_encoding.md R93, its rows in their order: "the first row whose
`KEY & mask = match` selects the handler". The last row's mask is 0, so it takes every key left. -/
def decodeKey (k : Key) : Instr :=
  if k &&& 0xFFFFFF#24 = 0x000001#24 then .ctrlSetEid
  else if k &&& 0xFFFFFF#24 = 0x000002#24 then .ctrlGetEid
  else if k &&& 0xFFFFFF#24 = 0x000003#24 then .ctrlGetUuid
  else if k &&& 0xFFFFFF#24 = 0x000004#24 then .ctrlGetVersion
  else if k &&& 0xFFFFFF#24 = 0x000005#24 then .ctrlGetMsgTypes
  else if k &&& 0xFFFFFF#24 = 0x000006#24 then .ctrlGetVdm
  else if k &&& 0xFF0000#24 = 0x000000#24 then .ctrlUnsupported (k.extractLsb' 0 16)
  else if k &&& 0xFFFFFF#24 = 0x075100#24 then .fmIdentifySwitch
  else if k &&& 0xFFFFFF#24 = 0x075101#24 then .fmGetPortState
  else if k &&& 0xFFFFFF#24 = 0x075102#24 then .fmPhysPortControl
  else if k &&& 0xFFFFFF#24 = 0x075103#24 then .fmSendPpbConfig
  else if k &&& 0xFF0000#24 = 0x070000#24 then .fmUnsupported (k.extractLsb' 0 16)
  else .msgUnsupported k

/-- Decoding a word of either format; total. -/
def decode : InstrWord → Instr
  | .event w => decodeEvent w
  | .key k => decodeKey k

/-- Decoding bytes, the first the least significant: two bytes are an event, three a key, and a string of
any other length is rejected by name. -/
def decodeBytes : List Byte → Except DecodeRefusal Instr
  | [b0, b1] => .ok (decodeEvent (b1 ++ b0))
  | [b0, b1, b2] => .ok (decodeKey (b2 ++ b1 ++ b0))
  | bytes => .error (.noSuchLength bytes.length)

/-- The event word with a code and a data byte (30_encoding.md R81). -/
def eventWord (code : BitVec 3) (data : Byte) : EventWord :=
  data ++ 0#5 ++ code

/-- The encoder: the word of an instruction, from the codes of 30_encoding.md R81 and the keys of R93. -/
def encode : Instr → InstrWord
  | .ctrlSetEid => .key 0x000001#24
  | .ctrlGetEid => .key 0x000002#24
  | .ctrlGetUuid => .key 0x000003#24
  | .ctrlGetVersion => .key 0x000004#24
  | .ctrlGetMsgTypes => .key 0x000005#24
  | .ctrlGetVdm => .key 0x000006#24
  | .ctrlUnsupported low => .key (0x00#8 ++ low)
  | .fmIdentifySwitch => .key 0x075100#24
  | .fmGetPortState => .key 0x075101#24
  | .fmPhysPortControl => .key 0x075102#24
  | .fmSendPpbConfig => .key 0x075103#24
  | .fmUnsupported low => .key (0x07#8 ++ low)
  | .msgUnsupported key => .key key
  | .startWrite => .event (eventWord 0#3 0#8)
  | .rxByte b => .event (eventWord 1#3 b)
  | .finish => .event (eventWord 2#3 0#8)
  | .nack => .event (eventWord 3#3 0#8)
  | .startRead => .event (eventWord 4#3 0#8)
  | .readReq => .event (eventWord 5#3 0#8)
  | .busGrant => .event (eventWord 6#3 0#8)
  | .txAck => .event (eventWord 7#3 0#8)

/-- The bytes of a word, the first the least significant. -/
def InstrWord.bytes : InstrWord → List Byte
  | .event w => [w.extractLsb' 0 8, w.extractLsb' 8 8]
  | .key k => [k.extractLsb' 0 8, k.extractLsb' 8 8, k.extractLsb' 16 8]

/-- A word as the number spec/opcode_table.json gives its match and mask for. -/
def InstrWord.number : InstrWord → Nat
  | .event w => w.toNat
  | .key k => k.toNat

/-- How many bytes the word of an opcode-table row has, from the bits the table gives the row: up to 16
bits are an event (its data byte may have none of them), 17 to 24 a key. -/
def tableByteCount (nbits : Nat) : Nat :=
  if nbits = 0 then 0 else if nbits ≤ 16 then 2 else (nbits + 7) / 8

/-- The bytes of an opcode-table word: its bits above nbits are 0. -/
def tableBytes (nbits w : Nat) : List Byte :=
  (List.range (tableByteCount nbits)).map fun i => BitVec.ofNat 8 ((w % 2 ^ nbits) / 2 ^ (8 * i))

/-- The instruction the decoder reads from an opcode-table word; none where it rejects. -/
def decodeTableWord (nbits w : Nat) : Option Instr :=
  match decodeBytes (tableBytes nbits w) with
  | .ok i => some i
  | .error _ => none

/-- A row's match and mask in spec/opcode_table.json. -/
structure TableRow where
  value : Nat
  mask : Nat
deriving DecidableEq, Repr

/-- The match and mask spec/opcode_table.json gives the row of each instruction (30_encoding.md R81, R93). -/
def Instr.tableRow : Instr → TableRow
  | .ctrlSetEid => ⟨0x000001, 0xFFFFFF⟩
  | .ctrlGetEid => ⟨0x000002, 0xFFFFFF⟩
  | .ctrlGetUuid => ⟨0x000003, 0xFFFFFF⟩
  | .ctrlGetVersion => ⟨0x000004, 0xFFFFFF⟩
  | .ctrlGetMsgTypes => ⟨0x000005, 0xFFFFFF⟩
  | .ctrlGetVdm => ⟨0x000006, 0xFFFFFF⟩
  | .ctrlUnsupported _ => ⟨0x000000, 0xFF0000⟩
  | .fmIdentifySwitch => ⟨0x075100, 0xFFFFFF⟩
  | .fmGetPortState => ⟨0x075101, 0xFFFFFF⟩
  | .fmPhysPortControl => ⟨0x075102, 0xFFFFFF⟩
  | .fmSendPpbConfig => ⟨0x075103, 0xFFFFFF⟩
  | .fmUnsupported _ => ⟨0x070000, 0xFF0000⟩
  | .msgUnsupported _ => ⟨0x000000, 0x000000⟩
  | .startWrite => ⟨0, 7⟩
  | .rxByte _ => ⟨1, 7⟩
  | .finish => ⟨2, 7⟩
  | .nack => ⟨3, 7⟩
  | .startRead => ⟨4, 7⟩
  | .readReq => ⟨5, 7⟩
  | .busGrant => ⟨6, 7⟩
  | .txAck => ⟨7, 7⟩

end Sys2Proof
end

