-- ==== Sys2Proof/Config.lean ====
section
/-! DEFINITION. The parameters of 00_scope.md R11, which the spec leaves to the implementation, and the free
value of READ_DATA. `Config.params` and `Config.readData` have no body: nothing can be proved of their
values, so a claim holds for every one (notes/assumptions/5.md, 6.md). -/

namespace Sys2Proof

/-- `P_EID_COMMIT`: when Set Endpoint ID commits (00_scope.md R11, 42_control_commands.md R171, R172). -/
inductive EidCommit where
  | immediate
  | atFinish
deriving DecidableEq, Repr, Inhabited

/-- The parameters of 00_scope.md R11, each at its width. -/
structure Params where
  /-- `P_OWN_ADDR7` -/
  ownAddr7 : Addr7
  /-- `P_INIT_EID` -/
  initEid : Byte
  /-- `P_UUID`, in index order (42_control_commands.md R175) -/
  uuid : Fin 16 → Byte
  /-- `P_VDM_VENDOR_ID` -/
  vdmVendorId : BitVec 16
  /-- `P_EID_COMMIT` -/
  eidCommit : EidCommit
  /-- `P_ID_INGRESS_PORT` -/
  idIngressPort : Byte
  /-- `P_ID_NUM_VCS` less one: the parameter's range is 1..255 (00_scope.md R11, notes/assumptions/7.md). -/
  idNumVcsPred : Fin 255
  /-- `P_ID_TOTAL_VPPB` -/
  idTotalVppb : BitVec 16
  /-- `P_ID_BOUND_VPPB` -/
  idBoundVppb : BitVec 16
  /-- `P_LTSSM` -/
  ltssm : Byte
  /-- `P_CFG_USP` -/
  cfgUsp : BitVec 4
  /-- `P_CFG_DSP` -/
  cfgDsp : BitVec 4
deriving Inhabited

/-- `P_ID_NUM_VCS`, 1..255 (00_scope.md R11). -/
def Params.idNumVcs (p : Params) : Nat := p.idNumVcsPred.val + 1

/-- The machine's parameters: no value is chosen (00_scope.md R11, notes/assumptions/6.md). Safe. -/
opaque Config.params : Params

/-- `P_READ_DATA`, the byte of the n-th READ_REQ: a draw, any byte (41_ingestion.md R140,
notes/assumptions/5.md). Safe. -/
opaque Config.readData : Nat → Byte

/-- `PORT_CAP` (00_scope.md R11, 10_state.md R26). DEDUCED (notes/assumptions/8.md), safe. -/
def portCap : Nat := 10

/-- `NUM_PORTS` (00_scope.md R11, 43_fmapi_commands.md R202). DEDUCED (notes/assumptions/8.md), safe. -/
def numPorts : Nat := 10

/-- `SENDBUF_CAP` (00_scope.md R11, 10_state.md R36). -/
def sendbufCap : Nat := 256

/-- The default column of 00_scope.md R11, which the spec's test vectors use (95_test_vectors.md §0). The
machine does not run on it: the tests do. -/
def Params.vectors : Params where
  ownAddr7 := 0x10#7
  initEid := 0x00#8
  uuid := fun i => BitVec.ofNat 8 i.val
  vdmVendorId := 0x1E98#16
  eidCommit := .immediate
  idIngressPort := 0x00#8
  idNumVcsPred := 0
  idTotalVppb := 0x0008#16
  idBoundVppb := 0x0008#16
  ltssm := 0x07#8
  cfgUsp := 0x4#4
  cfgDsp := 0x3#4

end Sys2Proof
end

