-- ==== Sys2Proof/Machine/State.lean ====
section
/-! DEFINITION. The state of the protocol engine as plain data (10_state.md), the reasons a step can stop,
and the state after reset (10_state.md R38, 70_reset_and_hazards.md R290). -/

namespace Sys2Proof.Machine

open Sys2Proof

/-- `ST` (10_state.md R30). The values 6 and 7 are unused: no rule enters them
(notes/assumptions/11.md). -/
inductive St where
  | idle | rx | rd | processRequest | startSend | ack
deriving DecidableEq, Repr

/-- The 3-bit value of `ST` (10_state.md R30). -/
def St.code : St → BitVec 3
  | .idle => 0 | .rx => 1 | .rd => 2 | .processRequest => 3 | .startSend => 4 | .ack => 5

/-- `REPLY_KIND` (10_state.md R35). The values 9..15 are unused (notes/assumptions/11.md). -/
inductive ReplyKind where
  | none | setEid | getEid | getUuid | getVersion | getMsgTypes | getVdm | identifySwitch | getPortState
deriving DecidableEq, Repr

/-- The 4-bit value of `REPLY_KIND` (10_state.md R35). -/
def ReplyKind.code : ReplyKind → BitVec 4
  | .none => 0 | .setEid => 1 | .getEid => 2 | .getUuid => 3 | .getVersion => 4 | .getMsgTypes => 5
  | .getVdm => 6 | .identifySwitch => 7 | .getPortState => 8

/-- `FAULT_CODE` (60_exceptions.md R262). The codes 8..15 are unused (notes/assumptions/11.md). -/
inductive FaultCode where
  | none | rxOutside | startWriteBusy | startReadBusy | finishBusy | readOutside | grantUnrequested | ackOutside
deriving DecidableEq, Repr

/-- The 4-bit value of `FAULT_CODE` (60_exceptions.md R262). -/
def FaultCode.code : FaultCode → BitVec 4
  | .none => 0 | .rxOutside => 1 | .startWriteBusy => 2 | .startReadBusy => 3 | .finishBusy => 4
  | .readOutside => 5 | .grantUnrequested => 6 | .ackOutside => 7

/-- The output actions (30_encoding.md R82). -/
inductive Action where
  | reqBus
  | txStart (a : Addr7)
  | txByte (b : Byte)
  | txEnd
  | busRelease
  | readData (b : Byte)
deriving DecidableEq, Repr

/-- The code of an output action (30_encoding.md R82). -/
def Action.code : Action → Nat
  | .reqBus => 0 | .txStart _ => 1 | .txByte _ => 2 | .txEnd => 3 | .busRelease => 4 | .readData _ => 5

/-- What the host delivers: an input event (30_encoding.md R81) or a reset, which is "an action of the
environment, outside the eight events" (70_reset_and_hazards.md R291, notes/assumptions/13.md). -/
inductive Stimulus where
  | event (w : EventWord)
  | reset
deriving DecidableEq, Repr

/-- The `CTX.*` registers of the Frame Context (10_state.md R22, R24, R25). -/
structure Ctx where
  /-- `CTX.PREAMBLE`, position 0 -/
  preamble : Byte
  /-- `CTX.BYTE_COUNT`, position 1; stored, never used -/
  byteCount : Byte
  /-- `CTX.SRC_ADDR`, position 2 -/
  srcAddr : Byte
  /-- `CTX.HDR_VER`, position 3; stored, never checked -/
  hdrVer : Byte
  /-- `CTX.DST_EID`, position 4 -/
  dstEid : Byte
  /-- `CTX.SRC_EID`, position 5 -/
  srcEid : Byte
  /-- `CTX.TAG_BYTE`, position 6 -/
  tagByte : Byte
  /-- `CTX.MSG_TYPE`, position 7 -/
  msgType : Byte
  /-- `CTX.CTL_FLAGS`, control position 8 -/
  ctlFlags : Byte
  /-- `CTX.CTL_CMD`, control position 9 -/
  ctlCmd : Byte
  /-- `CTX.CTL_ARG0`, control position 10 -/
  ctlArg0 : Byte
  /-- `CTX.CTL_ARG1`, control position 11 -/
  ctlArg1 : Byte
  /-- `CTX.ARG1_SEEN` -/
  arg1Seen : Bool
  /-- `CTX.FM_CATEGORY`, FM-API position 8 -/
  fmCategory : Byte
  /-- `CTX.FM_TAG`, FM-API position 9 -/
  fmTag : Byte
  /-- `CTX.FM_CMD`, FM-API position 11 -/
  fmCmd : Byte
  /-- `CTX.FM_SET`, FM-API position 12 -/
  fmSet : Byte
  /-- `CTX.FM_NPORTS`, FM-API position 20, clamped to 10 -/
  fmNports : Byte
  /-- `CTX.PORTS[0..9]`, FM-API positions 21..30 -/
  ports : Vector Byte 10
deriving DecidableEq, Repr

/-- Every `CTX.*` register at its reset and clear value (10_state.md R38). -/
def Ctx.cleared : Ctx where
  preamble := 0
  byteCount := 0
  srcAddr := 0
  hdrVer := 0
  dstEid := 0
  srcEid := 0
  tagByte := 0
  msgType := 0
  ctlFlags := 0
  ctlCmd := 0
  ctlArg0 := 0
  ctlArg1 := 0
  arg1Seen := false
  fmCategory := 0
  fmTag := 0
  fmCmd := 0
  fmSet := 0
  fmNports := 0
  ports := Vector.replicate 10 0

/-- The contents of a buffer: its entries other than 0x00, by rising index. An unlisted index reads 0x00,
the reset content of `SENDBUF` (10_state.md R36, R38, notes/assumptions/12.md). -/
abbrev Memory := List Host.Cell

/-- The state of the block (10_state.md R20). The last three fields are the model's own: what the host has
delivered and the block has not taken yet (notes/assumptions/1.md), the output stream of 00_scope.md R14
(notes/assumptions/4.md), and how many READ_DATA bytes have been drawn (notes/assumptions/5.md). -/
structure State where
  /-- `EID` (R28) -/
  eid : Byte
  /-- `FAULT` (R29) -/
  fault : Bool
  /-- `FAULT_CODE` (R29) -/
  faultCode : FaultCode
  /-- `CTX.*` (R22, R24, R25) -/
  ctx : Ctx
  /-- `RX_POS` (R31) -/
  rxPos : BitVec 16
  /-- `RX_CRC` (R32) -/
  rxCrc : Byte
  /-- `ST` (R30) -/
  st : St
  /-- `BUS_REQ` (R37) -/
  busReq : Bool
  /-- `REPLY_KIND` (R35) -/
  replyKind : ReplyKind
  /-- `TX_POS` (R33) -/
  txPos : Byte
  /-- `TX_LEN` (R34) -/
  txLen : Byte
  /-- `SENDBUF[0..255]` (R36) -/
  sendbuf : Memory
  /-- delivered and not yet taken, oldest first -/
  input : List Stimulus
  /-- the actions emitted, oldest first -/
  output : List Action
  /-- how many READ_DATA bytes have been drawn -/
  draws : Nat
deriving DecidableEq, Repr

/-- Why the machine stops. Each reason belongs to states that no run reaches and to which the spec gives
no effect; the host-contract faults of 60_exceptions.md R262 are NOT among these: they are next states. -/
inductive Fault where
  /-- START_WRITE, FINISH, NACK or START_READ with `ST = START_SEND`, which "is never held between steps"
  (10_state.md R30) and which their case tables do not list. Safe (notes/assumptions/9.md). -/
  | startSendHeld
  /-- TX_ACK with `TX_POS` past the terminator slot, to which 44_responder.md R236–R238 give no step. Safe
  (notes/assumptions/10.md). -/
  | slotPastTerminator
  /-- TX_ACK in a data slot at an index the reply image does not have. Safe (notes/assumptions/10.md). -/
  | imageIndexOutside
deriving DecidableEq, Repr

/-- Why an instruction is refused. -/
inductive Refusal where
  /-- Raised by an arm of `exec` whose instruction has no meaning yet; no arm is such a one. Safe. -/
  | notModelled (mnemonic : String)
deriving DecidableEq, Repr

/-- What a meaning answers. -/
abbrev Result := Host.Outcome State Fault Refusal

/-- The machine right after reset (10_state.md R38, 70_reset_and_hazards.md R290). The three fields of the
model's own start empty and at 0. DESIGN CHOICE (notes/assumptions/1.md, 4.md, 5.md). -/
def State.reset : State where
  eid := Config.params.initEid
  fault := false
  faultCode := .none
  ctx := Ctx.cleared
  rxPos := 0
  rxCrc := 0
  st := .idle
  busReq := false
  replyKind := .none
  txPos := 0
  txLen := 0
  sendbuf := []
  input := []
  output := []
  draws := 0

end Sys2Proof.Machine
end

