-- ==== Sys2Proof/Machine/Ops.lean ====
section
/-! DEFINITION. The named operations: the send buffer, the output stream, taking and leaving a fault, the
clear of a transaction, and the decode key. -/

namespace Sys2Proof.Machine

open Sys2Proof

/-! ### The send buffer (10_state.md R36, 20_memory.md R62) -/

/-- The byte at an index; an unlisted index reads 0x00. -/
def Memory.read : Memory → Nat → Byte
  | [], _ => 0
  | (k, v) :: rest, a => if k = a then v else Memory.read rest a

/-- Write one byte, keeping the canonical form: writing 0x00 leaves no entry. -/
def Memory.write : Memory → Nat → Byte → Memory
  | [], a, b => if b = 0 then [] else [(a, b)]
  | (k, v) :: rest, a, b =>
    if a < k then (if b = 0 then (k, v) :: rest else (a, b) :: (k, v) :: rest)
    else if a = k then (if b = 0 then rest else (a, b) :: rest)
    else (k, v) :: Memory.write rest a b

/-- Whether every listed index is above `low`, the indices rise strictly, and no entry is 0x00. -/
def Memory.risesFrom : Nat → Memory → Bool
  | _, [] => true
  | low, (k, v) :: rest => decide (low ≤ k) && decide (v ≠ 0) && Memory.risesFrom (k + 1) rest

/-- The canonical form: indices below `SENDBUF_CAP` and strictly rising, no entry 0x00. -/
def Memory.wf (m : Memory) : Bool :=
  Memory.risesFrom 0 m && m.all fun cell => decide (cell.1 < sendbufCap)

/-- The entries 0 .. n-1, read in one step: `MemRead(0, n)` (20_memory.md R62). -/
def Memory.readPrefix (m : Memory) (n : Nat) : List Byte :=
  (List.range n).map m.read

/-- `SENDBUF[i] <- b` (20_memory.md R62). -/
def State.writeSendbuf (s : State) (i b : Byte) : State :=
  { s with sendbuf := s.sendbuf.write i.toNat b }

/-! ### Outputs and faults (00_scope.md R14) -/

/-- `emit A` (00_scope.md R14, 20_memory.md R71). -/
def State.emit (s : State) (a : Action) : State :=
  { s with output := s.output ++ [a] }

/-- `raise Fault(code)` (60_exceptions.md R264): the one entry of a fault. It writes `FAULT` and
`FAULT_CODE` and no other register, and emits nothing. -/
def State.raiseFault (s : State) (code : FaultCode) : State :=
  { s with fault := true, faultCode := code }

/-- The fault guard every event begins with (41_ingestion.md R130): a faulted block ignores the event. -/
def guarded (s : State) (r : Result) : Result :=
  if s.fault = true then .next s else r

/-- A reset by the environment (70_reset_and_hazards.md R290, R291), the one way out of a fault
(60_exceptions.md R265): every register at its reset value, no output. What was emitted and what is still
to be delivered lie outside the block and stay (notes/assumptions/13.md). -/
def State.takeReset (s : State) : State :=
  { State.reset with input := s.input, output := s.output, draws := s.draws }

/-! ### The transaction boundary -/

/-- `ClearCtx()` (10_state.md R21, R38). -/
def State.clearCtx (s : State) : State :=
  { s with ctx := Ctx.cleared, rxPos := 0, rxCrc := 0, txPos := 0, txLen := 0, replyKind := .none }

/-- `sat16(v)` (00_scope.md R12). -/
def sat16 (v : Nat) : BitVec 16 := BitVec.ofNat 16 (min v 0xFFFF)

/-! ### Derived header values and the decode key -/

/-- `SUBCTX` (10_state.md R23, 30_encoding.md R88). -/
inductive SubCtx where
  | control | fmapi | none
deriving DecidableEq, Repr

/-- The sub-context a message type selects: the whole byte is compared (30_encoding.md R88). -/
def subCtxOf (msgType : Byte) : SubCtx :=
  if msgType = 0x00#8 then .control else if msgType = 0x07#8 then .fmapi else .none

/-- `SUBCTX` of the Frame Context (10_state.md R23). -/
def Ctx.subCtx (c : Ctx) : SubCtx := subCtxOf c.msgType

/-- `TAG = CTX.TAG_BYTE[2:0]` (10_state.md R23). -/
def Ctx.tag (c : Ctx) : BitVec 3 := c.tagByte.extractLsb' 0 3

/-- `REQ_ADDR7 = CTX.SRC_ADDR[7:1]` (10_state.md R23). -/
def Ctx.reqAddr7 (c : Ctx) : Addr7 := c.srcAddr.extractLsb' 1 7

/-- `KEY` (30_encoding.md R92). -/
def Ctx.key (c : Ctx) : Key :=
  match c.subCtx with
  | .control => c.msgType ++ 0x00#8 ++ c.ctlCmd
  | .fmapi => c.msgType ++ c.fmSet ++ c.fmCmd
  | .none => c.msgType ++ 0x00#8 ++ 0x00#8

end Sys2Proof.Machine
end

