-- ==== Sys2Proof/Machine/Control.lean ====
section
/-! DEFINITION. The replies of the MCTP control commands (42_control_commands.md). -/

namespace Sys2Proof.Machine

open Sys2Proof

/-- The control sub-header `IMG[9..10]` (42_control_commands.md R170): RQ = 0, D = 0, bit 5 = 0, the
instance ID and the command echoed. -/
def controlSubHeader (c : Ctx) : List Byte :=
  [0b000#3 ++ c.ctlFlags.extractLsb' 0 5, c.ctlCmd]

/-- Set Endpoint ID payload (42_control_commands.md R173). -/
def payloadSetEid (eid : Byte) : List Byte := [0x00, 0x00, eid, 0x00]

/-- Get Endpoint ID payload (42_control_commands.md R174). -/
def payloadGetEid (eid : Byte) : List Byte := [0x00, eid, 0x00, 0x00]

/-- Get Endpoint UUID payload (42_control_commands.md R175). -/
def payloadGetUuid (p : Params) : List Byte := 0x00 :: List.ofFn p.uuid

/-- Get Version payload: one entry, raw bytes 3, 1, 0, 0 (42_control_commands.md R177). -/
def payloadGetVersion : List Byte := [0x00, 0x01, 0x03, 0x01, 0x00, 0x00]

/-- Get Message-Type Support payload (42_control_commands.md R178). -/
def payloadGetMsgTypes : List Byte := [0x00, 0x02, 0x00, 0x07]

/-- Get Vendor-Defined-Message Support payload, the vendor ID most significant byte first
(42_control_commands.md R180, 20_memory.md R66(b)). -/
def payloadGetVdm (p : Params) : List Byte :=
  [0x00, p.vdmVendorId.extractLsb' 8 8, p.vdmVendorId.extractLsb' 0 8, 0xFF]

end Sys2Proof.Machine
end

