-- ==== Sys2Proof/Machine/FmApi.lean ====
section
/-! DEFINITION. The Virtual Switch Topology and the replies of the FM-API Physical Switch commands
(43_fmapi_commands.md). -/

namespace Sys2Proof.Machine

open Sys2Proof

/-- A 16-bit FM-API field, least significant byte first (20_memory.md R66(a), 30_encoding.md R98). -/
def le16 (v : BitVec 16) : List Byte := [v.extractLsb' 0 8, v.extractLsb' 8 8]

/-- The FM-API sub-header `IMG[9..20]` for a payload of `plen` bytes (43_fmapi_commands.md R201). -/
def fmSubHeader (c : Ctx) (plen : Nat) : List Byte :=
  let n := BitVec.ofNat 20 plen
  [0x01, c.fmTag, 0x00, c.fmCmd, c.fmSet,
   n.extractLsb' 0 8, n.extractLsb' 8 8, 0b0000#4 ++ n.extractLsb' 16 4,
   0x00, 0x00, 0x00, 0x00]

/-- Upstream or downstream port (43_fmapi_commands.md R203). -/
inductive PortClass where
  | usp | dsp
deriving DecidableEq, Repr

/-- `Class(p)` (43_fmapi_commands.md R203). -/
def portClass (port : Byte) : PortClass := if port.toNat < 2 then .usp else .dsp

/-- `PortBlock(p)` (43_fmapi_commands.md R204–R207). -/
def portBlock (p : Params) (port : Byte) : List Byte :=
  match portClass port with
  | .usp =>
    [port, 0b0000#4 ++ p.cfgUsp, 0x00, 0x00, 0x00, 0x02, 0x10, 0x10,
     0x1C, 0x05, 0x05, p.ltssm, 0x00, 0x00, 0x00, 0x00]
  | .dsp =>
    [port, 0b0000#4 ++ p.cfgDsp, 0x02, 0x00, 0x04, 0x02, 0x10, 0x10,
     0x1C, 0x05, 0x05, p.ltssm, 0x00, 0x00, 0x00, 0x03]

/-- `TOPO`: the block of each of the ten physical ports (43_fmapi_commands.md R202). -/
def topo (p : Params) : List (List Byte) :=
  (List.range numPorts).map fun i => portBlock p (BitVec.ofNat 8 i)

/-- Byte `j` of a bitmask whose bits 0..n-1 are 1: bit p of the mask is bit p mod 8 of byte p/8
(43_fmapi_commands.md R209). -/
def maskByte (n j : Nat) : Byte :=
  BitVec.ofNat 8 ((List.range 8).map fun i => if 8 * j + i < n then 2 ^ i else 0).sum

/-- A 256-bit mask whose bits 0..n-1 are 1 (43_fmapi_commands.md R209). -/
def mask256 (n : Nat) : List Byte := (List.range 32).map (maskByte n)

/-- Identify Switch payload, 72 bytes (43_fmapi_commands.md R209). -/
def payloadIdentifySwitch (p : Params) : List Byte :=
  [p.idIngressPort, 0x00, BitVec.ofNat 8 numPorts, BitVec.ofNat 8 p.idNumVcs]
    ++ mask256 numPorts ++ mask256 p.idNumVcs ++ le16 p.idTotalVppb ++ le16 p.idBoundVppb

/-- The port IDs the reply reports: `CTX.PORTS[0 .. FM_NPORTS-1]`, in the order requested
(43_fmapi_commands.md R212). -/
def requestedPorts (c : Ctx) : List Byte := c.ports.toList.take c.fmNports.toNat

/-- Get Physical Port State payload (43_fmapi_commands.md R212). -/
def payloadGetPortState (p : Params) (c : Ctx) : List Byte :=
  [c.fmNports, 0x00, 0x00, 0x00] ++ (requestedPorts c).flatMap (portBlock p)

end Sys2Proof.Machine
end

