-- ==== Sys2Proof/Machine/Responder.lean ====
section
/-! DEFINITION. The Responder (44_responder.md): the reply image, PROCESS_REQUEST, START_SEND and the slots
of ACK. Each operation takes the parameters of 00_scope.md R11 as an argument. -/

namespace Sys2Proof.Machine

open Sys2Proof

/-! ### The reply image -/

/-- `IMG[0]`: the requester's address, write direction (44_responder.md R232). -/
def addressByte (c : Ctx) : Byte := c.reqAddr7 ++ 0b0#1

/-- The reply transport header `Header(L)`, `IMG[0..8]` (44_responder.md R232). -/
def replyHeader (p : Params) (c : Ctx) (len : Nat) : List Byte :=
  [addressByte c, 0x0F, BitVec.ofNat 8 (len - 3), p.ownAddr7 ++ 0b1#1, 0x01, c.srcEid, c.dstEid,
   0b11000#5 ++ c.tag, c.msgType]

/-- The payload of each reply kind (44_responder.md R231); `NONE` has no reply. -/
def replyPayload (p : Params) (kind : ReplyKind) (eid : Byte) (c : Ctx) : List Byte :=
  match kind with
  | .none => []
  | .setEid => payloadSetEid eid
  | .getEid => payloadGetEid eid
  | .getUuid => payloadGetUuid p
  | .getVersion => payloadGetVersion
  | .getMsgTypes => payloadGetMsgTypes
  | .getVdm => payloadGetVdm p
  | .identifySwitch => payloadIdentifySwitch p
  | .getPortState => payloadGetPortState p c

/-- `Sub` of each reply kind (44_responder.md R231). -/
def replySubHeader (kind : ReplyKind) (c : Ctx) (plen : Nat) : List Byte :=
  match kind with
  | .none => []
  | .setEid | .getEid | .getUuid | .getVersion | .getMsgTypes | .getVdm => controlSubHeader c
  | .identifySwitch | .getPortState => fmSubHeader c plen

/-- `Sub ‖ Payload` (44_responder.md R231). -/
def replyBody (p : Params) (kind : ReplyKind) (eid : Byte) (c : Ctx) : List Byte :=
  replySubHeader kind c (replyPayload p kind eid c).length ++ replyPayload p kind eid c

/-- The reply image `IMG[0..L-1]` (44_responder.md R231): a function of the parameters, the reply kind,
`EID` and the Frame Context. There is none for `NONE`. -/
def replyImage (p : Params) (kind : ReplyKind) (eid : Byte) (c : Ctx) : List Byte :=
  match kind with
  | .none => []
  | kind => replyHeader p c (9 + (replyBody p kind eid c).length) ++ replyBody p kind eid c

/-- The image of the reply a state is sending: computed from `REPLY_KIND`, `EID` and `CTX` each time it is
read, as 44_responder.md R231 allows (notes/assumptions/15.md). -/
def State.image (p : Params) (s : State) : List Byte := replyImage p s.replyKind s.eid s.ctx

/-! ### The opcode map's reply kinds -/

/-- The reply kind of each row (30_encoding.md R93); an event is no request. -/
def rowReplyKind : Instr → ReplyKind
  | .ctrlSetEid => .setEid
  | .ctrlGetEid => .getEid
  | .ctrlGetUuid => .getUuid
  | .ctrlGetVersion => .getVersion
  | .ctrlGetMsgTypes => .getMsgTypes
  | .ctrlGetVdm => .getVdm
  | .fmIdentifySwitch => .identifySwitch
  | .fmGetPortState => .getPortState
  | .ctrlUnsupported _ | .fmPhysPortControl | .fmSendPpbConfig | .fmUnsupported _ | .msgUnsupported _ => .none
  | .startWrite | .rxByte _ | .finish | .nack | .startRead | .readReq | .busGrant | .txAck => .none

/-! ### BUS_GRANT: PROCESS_REQUEST and START_SEND -/

/-- The end of a transaction: `ClearCtx(); ST <- IDLE`. -/
def State.endTransaction (s : State) : State := { s.clearCtx with st := .idle }

/-- `StartSend()` (44_responder.md R234), its writes in order. -/
def startSend (p : Params) (s : State) : State :=
  let s1 := { s with st := .startSend, txLen := BitVec.ofNat 8 (s.image p).length }
  let s2 := s1.emit (.txStart s1.ctx.reqAddr7)
  let s3 := s2.writeSendbuf 0 (addressByte s2.ctx)
  { s3 with txPos := 1, st := .ack }

/-- `ProcessRequest()` once the reply kind is selected (44_responder.md R233). -/
def processRequest (p : Params) (kind : ReplyKind) (s : State) : State :=
  let s1 := { s with replyKind := kind }
  if kind = .none then (s1.emit .busRelease).endTransaction else startSend p s1

/-- The BUS_GRANT step (41_ingestion.md R142) with the reply kind `kind` for the request it serves. -/
def grant (p : Params) (kind : ReplyKind) (s : State) : Result :=
  guarded s <|
    if s.busReq = true then
      let s1 := { s with busReq := false }
      if s1.st = .processRequest then .next (processRequest p kind s1)
      else .next (s1.emit .busRelease)
    else .next (s.raiseFault .grantUnrequested)

/-! ### TX_ACK: the slots of ACK -/

/-- The data slot, `TX_POS < TX_LEN` (44_responder.md R236). -/
def dataSlot (p : Params) (s : State) : Result :=
  match (s.image p)[s.txPos.toNat]? with
  | some b =>
    let s1 := (s.writeSendbuf s.txPos b).emit (.txByte b)
    .next { s1 with txPos := s1.txPos + 1 }
  | none => .fault .imageIndexOutside

/-- The PEC slot, `TX_POS = TX_LEN` (44_responder.md R237, 40_checksum.md R125). -/
def pecSlot (s : State) : State :=
  let s1 := s.emit (.txByte (crc8 (s.sendbuf.readPrefix s.txLen.toNat)))
  { s1 with txPos := s1.txPos + 1 }

/-- The terminator slot, `TX_POS = TX_LEN + 1` (44_responder.md R238). -/
def terminatorSlot (s : State) : State :=
  ((s.emit .txEnd).emit .busRelease).endTransaction

/-- `AckStep()` (44_responder.md R236–R238). `TX_LEN + 1` is an 8-bit sum (notes/assumptions/16.md). -/
def ackStep (p : Params) (s : State) : Result :=
  if s.txPos < s.txLen then dataSlot p s
  else if s.txPos = s.txLen then .next (pecSlot s)
  else if s.txPos = s.txLen + 1 then .next (terminatorSlot s)
  else .fault .slotPastTerminator

/-- The TX_ACK step (41_ingestion.md R143). -/
def txAck (p : Params) (s : State) : Result :=
  guarded s <|
    if s.st = .ack then ackStep p s else .next (s.raiseFault .ackOutside)

end Sys2Proof.Machine
end

