-- ==== Sys2Proof/Machine/Commands.lean ====
section
/-! DEFINITION. The meanings of the thirteen request rows (30_encoding.md R93): the BUS_GRANT step that
serves a request of that row (41_ingestion.md R142, 44_responder.md R233, notes/assumptions/3.md). The
row's bytes were parsed by RX_BYTE, and an EID it assigns was committed by RX_BYTE or FINISH. -/

namespace Sys2Proof.Machine

open Sys2Proof

/-- `CTRL.SET_EID`: reply kind `SET_EID` (42_control_commands.md R173). -/
def execCtrlSetEid (s : State) : Result := grant Config.params .setEid s

/-- `CTRL.GET_EID`: reply kind `GET_EID` (42_control_commands.md R174). -/
def execCtrlGetEid (s : State) : Result := grant Config.params .getEid s

/-- `CTRL.GET_UUID`: reply kind `GET_UUID` (42_control_commands.md R175). -/
def execCtrlGetUuid (s : State) : Result := grant Config.params .getUuid s

/-- `CTRL.GET_VERSION`: reply kind `GET_VERSION` (42_control_commands.md R177). -/
def execCtrlGetVersion (s : State) : Result := grant Config.params .getVersion s

/-- `CTRL.GET_MSG_TYPES`: reply kind `GET_MSG_TYPES` (42_control_commands.md R178). -/
def execCtrlGetMsgTypes (s : State) : Result := grant Config.params .getMsgTypes s

/-- `CTRL.GET_VDM`: reply kind `GET_VDM` (42_control_commands.md R180). -/
def execCtrlGetVdm (s : State) : Result := grant Config.params .getVdm s

/-- `CTRL.UNSUPPORTED`: no reply (42_control_commands.md R181). -/
def execCtrlUnsupported (s : State) : Result := grant Config.params .none s

/-- `FM.IDENTIFY_SWITCH`: reply kind `IDENTIFY_SWITCH` (43_fmapi_commands.md R209). -/
def execFmIdentifySwitch (s : State) : Result := grant Config.params .identifySwitch s

/-- `FM.GET_PORT_STATE`: reply kind `GET_PORT_STATE` (43_fmapi_commands.md R212). -/
def execFmGetPortState (s : State) : Result := grant Config.params .getPortState s

/-- `FM.PHYS_PORT_CONTROL`: no state change and no reply (43_fmapi_commands.md R213). -/
def execFmPhysPortControl (s : State) : Result := grant Config.params .none s

/-- `FM.SEND_PPB_CONFIG`: no state change and no reply (43_fmapi_commands.md R214). -/
def execFmSendPpbConfig (s : State) : Result := grant Config.params .none s

/-- `FM.UNSUPPORTED`: no reply (43_fmapi_commands.md R215). -/
def execFmUnsupported (s : State) : Result := grant Config.params .none s

/-- `MSG.UNSUPPORTED`: no reply (42_control_commands.md R181). -/
def execMsgUnsupported (s : State) : Result := grant Config.params .none s

end Sys2Proof.Machine
end

