-- ==== Sys2Proof/Machine/Operands.lean ====
section
/-! DEFINITION. Where each request byte goes: the position-indexed capture of the ingestion state machine
(30_encoding.md R84–R90, 41_ingestion.md R133–R137) and the per-command parsers. -/

namespace Sys2Proof.Machine

open Sys2Proof

/-- `CaptureHeader(p, b)` for p in 0..7 (41_ingestion.md R133). -/
def captureHeader (p : Nat) (b : Byte) (c : Ctx) : Ctx :=
  match p with
  | 0 => { c with preamble := b }
  | 1 => { c with byteCount := b }
  | 2 => { c with srcAddr := b }
  | 3 => { c with hdrVer := b }
  | 4 => { c with dstEid := b }
  | 5 => { c with srcEid := b }
  | 6 => { c with tagByte := b }
  | 7 => { c with msgType := b }
  | _ => c

/-- Set Endpoint ID: parse, with the commit of `P_EID_COMMIT = IMMEDIATE` (42_control_commands.md R171). -/
def parseSetEid (params : Params) (p : Nat) (b : Byte) (s : State) : State :=
  if p = 10 then { s with ctx := { s.ctx with ctlArg0 := b } }
  else if p = 11 then
    { s with
      ctx := { s.ctx with ctlArg1 := b, arg1Seen := true }
      eid := if params.eidCommit = .immediate then b else s.eid }
  else s

/-- Get Version: parse; the requested message type is stored and ignored (42_control_commands.md R176). -/
def parseGetVersion (p : Nat) (b : Byte) (s : State) : State :=
  if p = 10 then { s with ctx := { s.ctx with ctlArg0 := b } } else s

/-- Get Vendor-Defined-Message Support: parse; the selector is stored and ignored
(42_control_commands.md R179). -/
def parseGetVdm (p : Nat) (b : Byte) (s : State) : State :=
  if p = 10 then { s with ctx := { s.ctx with ctlArg0 := b } } else s

/-- `ControlBodyParser(cmd, p, b)` (41_ingestion.md R135, 30_encoding.md R89). -/
def controlBodyParser (params : Params) (cmd : Byte) (p : Nat) (b : Byte) (s : State) : State :=
  if cmd = 0x01#8 then parseSetEid params p b s
  else if cmd = 0x04#8 then parseGetVersion p b s
  else if cmd = 0x06#8 then parseGetVdm p b s
  else s

/-- `CaptureControl(p, b)` for p ≥ 8 (41_ingestion.md R135). -/
def captureControl (params : Params) (p : Nat) (b : Byte) (s : State) : State :=
  if p = 8 then { s with ctx := { s.ctx with ctlFlags := b } }
  else if p = 9 then { s with ctx := { s.ctx with ctlCmd := b } }
  else controlBodyParser params s.ctx.ctlCmd p b s

/-- The count of Get Physical Port State, clamped to `PORT_CAP` (43_fmapi_commands.md R210). -/
def clampPorts (b : Byte) : Byte := BitVec.ofNat 8 (min b.toNat portCap)

/-- `PortStateParser(p, b)` for p ≥ 20 (43_fmapi_commands.md R210, R211). An index the array does not have
is not stored; none is reached while `FM_NPORTS ≤ 10` (notes/assumptions/10.md). -/
def portStateParser (p : Nat) (b : Byte) (c : Ctx) : Ctx :=
  if p = 20 then { c with fmNports := clampPorts b }
  else if p - 21 < c.fmNports.toNat then { c with ports := c.ports.setIfInBounds (p - 21) b }
  else c

/-- `CaptureFmApi(p, b)` for p ≥ 8 (41_ingestion.md R136). -/
def captureFmApi (p : Nat) (b : Byte) (c : Ctx) : Ctx :=
  if p = 8 then { c with fmCategory := b }
  else if p = 9 then { c with fmTag := b }
  else if p = 10 then c
  else if p = 11 then { c with fmCmd := b }
  else if p = 12 then { c with fmSet := b }
  else if p ≤ 19 then c
  else if c.fmSet = 0x51#8 ∧ c.fmCmd = 0x01#8 then portStateParser p b c
  else c

/-- The field capture of RX_BYTE at position p (41_ingestion.md R132, R137). -/
def capture (params : Params) (p : Nat) (b : Byte) (s : State) : State :=
  if p < 8 then { s with ctx := captureHeader p b s.ctx }
  else match s.ctx.subCtx with
    | .control => captureControl params p b s
    | .fmapi => { s with ctx := captureFmApi p b s.ctx }
    | .none => s

end Sys2Proof.Machine
end

