-- ==== Sys2Proof/Machine/Flags.lean ====
section
/-! DEFINITION. The one-bit status registers (10_state.md R39: "no condition codes, status flags or
predicates"; only `FAULT`, `BUS_REQ` and `CTX.ARG1_SEEN`). `FAULT` is written in Machine/Ops.lean and
`CTX.ARG1_SEEN` set in Machine/Operands.lean; here are `BUS_REQ` and the commit that reads `ARG1_SEEN`. -/

namespace Sys2Proof.Machine

open Sys2Proof

/-- `if BUS_REQ = 0: BUS_REQ <- 1; emit REQ_BUS` (41_ingestion.md R139). -/
def State.requestBus (s : State) : State :=
  if s.busReq = true then s else { s with busReq := true }.emit .reqBus

/-- `CommitAtFinish()` (42_control_commands.md R172). -/
def State.commitAtFinish (s : State) : State :=
  if s.ctx.subCtx = .control ∧ s.ctx.ctlCmd = 0x01#8 ∧ s.ctx.arg1Seen = true then
    { s with eid := s.ctx.ctlArg1 }
  else s

end Sys2Proof.Machine
end

