-- ==== Sys2Proof/Machine/Ingestion.lean ====
section
/-! DEFINITION. The meanings of the eight input events (41_ingestion.md). -/

namespace Sys2Proof.Machine

open Sys2Proof

/-- `START_WRITE` (41_ingestion.md R131). -/
def execStartWrite (s : State) : Result :=
  guarded s <|
    match s.st with
    | .idle | .rx | .rd => .next { s.clearCtx with st := .rx }
    | .processRequest | .ack => .next (s.raiseFault .startWriteBusy)
    | .startSend => .fault .startSendHeld

/-- The RX_BYTE step (41_ingestion.md R132): the CRC first, then the field, then the position. -/
def rxByte (p : Params) (b : Byte) (s : State) : Result :=
  guarded s <|
    if s.st = .rx then
      let s1 := { s with rxCrc := crc8Update s.rxCrc b }
      let s2 := capture p s1.rxPos.toNat b s1
      .next { s2 with rxPos := sat16 (s2.rxPos.toNat + 1) }
    else .next (s.raiseFault .rxOutside)

/-- `RX_BYTE(b)` (41_ingestion.md R132). -/
def execRxByte (b : Byte) (s : State) : Result := rxByte Config.params b s

/-- The FINISH step (41_ingestion.md R139). -/
def finish (p : Params) (s : State) : Result :=
  guarded s <|
    match s.st with
    | .rx =>
      let s1 := if p.eidCommit = .atFinish then s.commitAtFinish else s
      .next ({ s1 with st := .processRequest }).requestBus
    | .idle | .rd => .next { s with st := .idle }
    | .processRequest | .ack => .next (s.raiseFault .finishBusy)
    | .startSend => .fault .startSendHeld

/-- `FINISH` (41_ingestion.md R139). -/
def execFinish (s : State) : Result := finish Config.params s

/-- `NACK` (41_ingestion.md R141). -/
def execNack (s : State) : Result :=
  guarded s <|
    match s.st with
    | .idle => .next s
    | .rx | .rd | .processRequest => .next s.endTransaction
    | .ack => .next ((s.emit .txEnd).emit .busRelease).endTransaction
    | .startSend => .fault .startSendHeld

/-- `START_READ` (41_ingestion.md R138). -/
def execStartRead (s : State) : Result :=
  guarded s <|
    match s.st with
    | .idle | .rx | .rd => .next { s.clearCtx with st := .rd }
    | .processRequest | .ack => .next (s.raiseFault .startReadBusy)
    | .startSend => .fault .startSendHeld

/-- `READ_REQ` (41_ingestion.md R140): the byte is the next draw of the free value `P_READ_DATA`. -/
def execReadReq (s : State) : Result :=
  guarded s <|
    if s.st = .rd then
      .next { s.emit (.readData (Config.readData s.draws)) with draws := s.draws + 1 }
    else .next (s.raiseFault .readOutside)

/-- `BUS_GRANT` (41_ingestion.md R142): the request it serves is the row its decode key selects
(44_responder.md R233). -/
def execBusGrant (s : State) : Result :=
  grant Config.params (rowReplyKind (decodeKey s.ctx.key)) s

/-- `TX_ACK` (41_ingestion.md R143). -/
def execTxAck (s : State) : Result := txAck Config.params s

end Sys2Proof.Machine
end

