-- ==== Sys2Proof/Machine/Dispatch.lean ====
section
/-! DEFINITION. exec: one arm per instruction. -/

namespace Sys2Proof.Machine
open Sys2Proof

def exec (i : Instr) (s : State) : Host.Outcome State Fault Refusal :=
  match i with
  | .ctrlSetEid => Sys2Proof.Machine.execCtrlSetEid s
  | .ctrlGetEid => Sys2Proof.Machine.execCtrlGetEid s
  | .ctrlGetUuid => Sys2Proof.Machine.execCtrlGetUuid s
  | .ctrlGetVersion => Sys2Proof.Machine.execCtrlGetVersion s
  | .ctrlGetMsgTypes => Sys2Proof.Machine.execCtrlGetMsgTypes s
  | .ctrlGetVdm => Sys2Proof.Machine.execCtrlGetVdm s
  | .ctrlUnsupported _ => Sys2Proof.Machine.execCtrlUnsupported s
  | .fmIdentifySwitch => Sys2Proof.Machine.execFmIdentifySwitch s
  | .fmGetPortState => Sys2Proof.Machine.execFmGetPortState s
  | .fmPhysPortControl => Sys2Proof.Machine.execFmPhysPortControl s
  | .fmSendPpbConfig => Sys2Proof.Machine.execFmSendPpbConfig s
  | .fmUnsupported _ => Sys2Proof.Machine.execFmUnsupported s
  | .msgUnsupported _ => Sys2Proof.Machine.execMsgUnsupported s
  | .startWrite => Sys2Proof.Machine.execStartWrite s
  | .rxByte b => Sys2Proof.Machine.execRxByte b s
  | .finish => Sys2Proof.Machine.execFinish s
  | .nack => Sys2Proof.Machine.execNack s
  | .startRead => Sys2Proof.Machine.execStartRead s
  | .readReq => Sys2Proof.Machine.execReadReq s
  | .busGrant => Sys2Proof.Machine.execBusGrant s
  | .txAck => Sys2Proof.Machine.execTxAck s

end Sys2Proof.Machine
end

