-- ==== Sys2Proof/Machine/Fetch.lean ====
section
/-! DEFINITION. What a step takes next: the oldest delivered stimulus, and the instruction it is. -/

namespace Sys2Proof.Machine

open Sys2Proof

/-- What a step finds: nothing delivered, a reset, or an instruction and the state it runs in. -/
inductive Fetched where
  | parked
  | reset (s : State)
  | run (i : Instr) (s : State)
deriving DecidableEq, Repr

/-- Whether a BUS_GRANT taken in this state serves a pending request (41_ingestion.md R142). -/
def State.servesRequest (s : State) : Bool :=
  !s.fault && s.busReq && decide (s.st = .processRequest)

/-- The instruction an event is: a BUS_GRANT that serves a pending request is the request row its decode
key selects (30_encoding.md R92, R93, 44_responder.md R233, notes/assumptions/3.md). -/
def State.select (s : State) (i : Instr) : Instr :=
  if i = .busGrant ∧ s.servesRequest = true then decodeKey s.ctx.key else i

/-- Take the oldest delivered stimulus. With nothing delivered the block is parked
(70_reset_and_hazards.md R298). -/
def State.fetch (s : State) : Fetched :=
  match s.input with
  | [] => .parked
  | .reset :: rest => .reset { s with input := rest }.takeReset
  | .event w :: rest =>
    let s1 := { s with input := rest }
    .run (s1.select (decodeEvent w)) s1

/-! ### Placing an instruction -/

/-- The Frame Context a request with this key leaves. A key that 30_encoding.md R92 never forms (a control
key whose bits 15..8 are not 0) leaves a command with no handler (notes/assumptions/14.md). -/
def Ctx.withKey (c : Ctx) (k : Key) : Ctx :=
  match subCtxOf (k.extractLsb' 16 8) with
  | .control =>
    { c with
      msgType := k.extractLsb' 16 8
      ctlCmd := if k.extractLsb' 8 8 = 0#8 then k.extractLsb' 0 8 else 0#8 }
  | .fmapi =>
    { c with msgType := k.extractLsb' 16 8, fmSet := k.extractLsb' 8 8, fmCmd := k.extractLsb' 0 8 }
  | .none => { c with msgType := k.extractLsb' 16 8 }

/-- The state in which an event is the next thing delivered. -/
def State.placeEvent (s : State) (w : EventWord) : State :=
  { s with input := .event w :: s.input }

/-- The state in which a request with this key is complete and pending and its BUS_GRANT is the next thing
delivered. -/
def State.placeRequest (s : State) (k : Key) : State :=
  { s with ctx := s.ctx.withKey k, st := .processRequest, busReq := true }.placeEvent (eventWord 6#3 0#8)

/-- Place the opcode-table word that `decodeTableWord` reads. -/
def State.placeTableWord (s : State) (nbits w : Nat) : State :=
  match tableBytes nbits w with
  | [b0, b1] => s.placeEvent (b1 ++ b0)
  | [b0, b1, b2] => s.placeRequest (b2 ++ b1 ++ b0)
  | _ => s

end Sys2Proof.Machine
end

