-- ==== Sys2Proof/Machine/Step.lean ====
section
/-! DEFINITION. One step of the machine: the whole handling of one delivered stimulus (00_scope.md R15). -/

namespace Sys2Proof.Machine

/-- One step: run the instruction that the oldest delivered event is; take a reset (70_reset_and_hazards.md
R291); or, with nothing delivered, wait with all state held (R298). -/
def step (s : State) : Host.Outcome State Fault Refusal :=
  match s.fetch with
  | .parked => .next s
  | .reset s1 => .next s1
  | .run i s1 => exec i s1

/-- `s` with an opcode-table word placed where the next step takes its instruction: an event at the head of
what is delivered; a request key as a pending request with its BUS_GRANT at the head
(notes/assumptions/3.md). -/
def State.withFetchWord (s : State) (nbits w : Nat) : State := s.placeTableWord nbits w

end Sys2Proof.Machine
end

