-- ==== Sys2Proof/Safety.lean ====
section
/-! DEFINITION. What counts as a safe run, in the terms claims use: the end of a run, the host contract, the
invariant of the reachable states, and runs of several instructions. -/

namespace Sys2Proof.Machine

open Sys2Proof

/-! ### The end of a run and the host contract -/

/-- A run is complete after a step that leaves `ST = IDLE`, `BUS_REQ = 0` and `FAULT = 0`
(70_reset_and_hazards.md R299). -/
def State.complete (s : State) : Bool :=
  decide (s.st = .idle) && !s.busReq && !s.fault

/-- The fault that an event raises in a state, by the table of 60_exceptions.md R262; none where the event
is legal (R263). A request row is a BUS_GRANT. -/
def hostFault (i : Instr) (s : State) : Option FaultCode :=
  match i with
  | .rxByte _ => if s.st = .rx then none else some .rxOutside
  | .startWrite => if s.st = .processRequest ∨ s.st = .ack then some .startWriteBusy else none
  | .startRead => if s.st = .processRequest ∨ s.st = .ack then some .startReadBusy else none
  | .finish => if s.st = .processRequest ∨ s.st = .ack then some .finishBusy else none
  | .readReq => if s.st = .rd then none else some .readOutside
  | .txAck => if s.st = .ack then none else some .ackOutside
  | .nack => none
  | .busGrant | .ctrlSetEid | .ctrlGetEid | .ctrlGetUuid | .ctrlGetVersion | .ctrlGetMsgTypes
  | .ctrlGetVdm | .ctrlUnsupported _ | .fmIdentifySwitch | .fmGetPortState | .fmPhysPortControl
  | .fmSendPpbConfig | .fmUnsupported _ | .msgUnsupported _ =>
    if s.busReq = true then none else some .grantUnrequested

/-- The states an event may leave, by the transition summary of 41_ingestion.md R144; an "F" cell leaves
`ST` as it is. The transient `START_SEND` has no row there. -/
def allowedSt (i : Instr) (st : St) (busReq : Bool) : List St :=
  match i with
  | .startWrite => match st with
    | .idle | .rx | .rd => [.rx]
    | .processRequest | .startSend | .ack => [st]
  | .rxByte _ => [st]
  | .finish => match st with
    | .idle | .rd => [.idle]
    | .rx => [.processRequest]
    | .processRequest | .startSend | .ack => [st]
  | .nack => [.idle]
  | .startRead => match st with
    | .idle | .rx | .rd => [.rd]
    | .processRequest | .startSend | .ack => [st]
  | .readReq => [st]
  | .busGrant | .ctrlSetEid | .ctrlGetEid | .ctrlGetUuid | .ctrlGetVersion | .ctrlGetMsgTypes
  | .ctrlGetVdm | .ctrlUnsupported _ | .fmIdentifySwitch | .fmGetPortState | .fmPhysPortControl
  | .fmSendPpbConfig | .fmUnsupported _ | .msgUnsupported _ =>
    if st = .processRequest ∧ busReq = true then [.ack, .idle] else [st]
  | .txAck => if st = .ack then [.ack, .idle] else [st]

/-- The reply kind of the request a BUS_GRANT or a request row serves: the event asks the decode key
(30_encoding.md R92, R93, 44_responder.md R233), a row is its own. -/
def servedKind (i : Instr) (s : State) : ReplyKind :=
  if i = .busGrant then rowReplyKind (decodeKey s.ctx.key) else rowReplyKind i

/-- The send-buffer index an instruction stores to, if it stores (20_memory.md R62): index 0 when a reply
starts (44_responder.md R234), index `TX_POS` in a data slot (R236). -/
def storeIndex (i : Instr) (s : State) : Option Nat :=
  if s.fault = true then none
  else if i.isGrant = true then
    if s.busReq = true ∧ s.st = .processRequest ∧ servedKind i s ≠ .none then some 0 else none
  else if i = .txAck then
    if s.st = .ack ∧ s.txPos < s.txLen then some s.txPos.toNat else none
  else none

/-! ### The invariant of the reachable states -/

/-- Every register that only a byte at position n or later, or only the other sub-context, would write
still holds its cleared value (30_encoding.md R91, 10_state.md R27, 20_memory.md R64). -/
structure UnreachedZero (n : Nat) (c : Ctx) : Prop where
  preamble : n ≤ 0 → c.preamble = 0
  byteCount : n ≤ 1 → c.byteCount = 0
  srcAddr : n ≤ 2 → c.srcAddr = 0
  hdrVer : n ≤ 3 → c.hdrVer = 0
  dstEid : n ≤ 4 → c.dstEid = 0
  srcEid : n ≤ 5 → c.srcEid = 0
  tagByte : n ≤ 6 → c.tagByte = 0
  msgType : n ≤ 7 → c.msgType = 0
  ctlFlags : n ≤ 8 ∨ c.subCtx ≠ .control → c.ctlFlags = 0
  ctlCmd : n ≤ 9 ∨ c.subCtx ≠ .control → c.ctlCmd = 0
  ctlArg0 : n ≤ 10 ∨ c.subCtx ≠ .control → c.ctlArg0 = 0
  ctlArg1 : n ≤ 11 ∨ c.subCtx ≠ .control → c.ctlArg1 = 0
  arg1Seen : n ≤ 11 ∨ c.subCtx ≠ .control → c.arg1Seen = false
  fmCategory : n ≤ 8 ∨ c.subCtx ≠ .fmapi → c.fmCategory = 0
  fmTag : n ≤ 9 ∨ c.subCtx ≠ .fmapi → c.fmTag = 0
  fmCmd : n ≤ 11 ∨ c.subCtx ≠ .fmapi → c.fmCmd = 0
  fmSet : n ≤ 12 ∨ c.subCtx ≠ .fmapi → c.fmSet = 0
  fmNports : n ≤ 20 ∨ c.subCtx ≠ .fmapi → c.fmNports = 0
  ports : ∀ (i : Nat) (h : i < 10), n ≤ 21 + i ∨ c.fmNports.toNat ≤ i → c.ports[i] = 0

/-- A reply in progress: a kind is selected, `TX_LEN` is its image's length, `TX_POS` is one of its slots,
and the send buffer holds the bytes already produced (44_responder.md R233–R237). -/
structure ReplyInProgress (s : State) : Prop where
  kind : s.replyKind ≠ .none
  length : s.txLen.toNat = (s.image Config.params).length
  first : 1 ≤ s.txPos.toNat
  last : s.txPos.toNat ≤ s.txLen.toNat + 1
  sent : ∀ i, i < s.txPos.toNat → i < s.txLen.toNat →
    some (s.sendbuf.read i) = (s.image Config.params)[i]?

/-- What holds at reset and every step keeps. -/
structure State.Inv (s : State) : Prop where
  /-- `SENDBUF` is in canonical form, its indices below 256 (10_state.md R36). -/
  buffer : s.sendbuf.wf = true
  /-- `CTX.FM_NPORTS ≤ 10` (10_state.md R26). -/
  count : s.ctx.fmNports.toNat ≤ portCap
  /-- `START_SEND` is never held between steps (10_state.md R30). -/
  notStartSend : s.st ≠ .startSend
  /-- `ST = PROCESS_REQUEST` always has `BUS_REQ = 1` (41_ingestion.md R144). -/
  pending : s.st = .processRequest → s.busReq = true
  /-- `ST = ACK` always has `BUS_REQ = 0` (41_ingestion.md R144). -/
  answered : s.st = .ack → s.busReq = false
  /-- `FAULT` and `FAULT_CODE` agree (60_exceptions.md R262, R264). -/
  faultCode : s.fault = true ↔ s.faultCode ≠ .none
  /-- Outside a transaction the position and the receive CRC are clear (70_reset_and_hazards.md R300). -/
  outside : s.st = .idle ∨ s.st = .rd → s.rxPos = 0 ∧ s.rxCrc = 0
  /-- Outside a reply the transmit registers are clear (70_reset_and_hazards.md R300). -/
  notSending : s.st ≠ .ack → s.txPos = 0 ∧ s.txLen = 0 ∧ s.replyKind = .none
  /-- Registers no byte has reached are clear (30_encoding.md R91). -/
  unreached : UnreachedZero s.rxPos.toNat s.ctx
  /-- In `ACK` a reply is in progress (44_responder.md R233–R237). -/
  sending : s.st = .ack → ReplyInProgress s

/-! ### The bus -/

/-- How often an action occurs in an output stream. -/
def countAction (a : Action) (out : List Action) : Nat := out.countP fun x => decide (x = a)

/-- How many granted bus requests a state holds: the one of the reply it is sending (41_ingestion.md R142). -/
def St.grantsHeld : St → Nat
  | .ack => 1
  | .idle | .rx | .rd | .processRequest | .startSend => 0

/-- Bus requests asked for are those given up, the one outstanding and the one held for a reply
(20_memory.md R73, 60_exceptions.md R276 duty 2). -/
def busBalanced (s : State) : Prop :=
  countAction .reqBus s.output =
    countAction .busRelease s.output + s.busReq.toNat + s.st.grantsHeld

/-! ### Runs of several instructions -/

/-- Run instructions one after the other, stopping at the first that stops. -/
def execAll : List Instr → State → Result
  | [], s => .next s
  | i :: is, s =>
    match exec i s with
    | .next t => execAll is t
    | .fault r => .fault r
    | .refused r => .refused r

/-- `START_WRITE` and then one RX_BYTE for each byte (30_encoding.md R101). -/
def receive (bytes : List Byte) : List Instr := .startWrite :: bytes.map .rxByte

end Sys2Proof.Machine
end

