-- ==== Sys2Proof/Certificates/Slice0/Obligations.lean ====
section
/-! DEFINITION. The statements for the provers. Each docstring names the rules of spec/ it rests on; OBLIGATIONS.json
lists them. `Config.params` and `Config.readData` have no body, so each statement holds for every
configuration and every draw. -/

open Sys2Proof Sys2Proof.Machine

/-! ### Encoding -/

/-- Decoding the word of a well-formed instruction gives it back, with every operand (30_encoding.md R81, R93;
the places of an event's bits are the model's choice, notes/assumptions/2.md). -/
def Obligations.DecodeEncodeRoundTrip : Prop :=
  ∀ i : Instr, i.wf = true → decode (encode i) = i

/-- Every 24-bit key is the word of exactly the well-formed request row it decodes to (30_encoding.md R93). -/
def Obligations.EveryKeyHasItsRow : Prop :=
  ∀ k : Key, (decodeKey k).wf = true ∧ (decodeKey k).isEvent = false ∧ encode (decodeKey k) = .key k

/-- A few words written out from 30_encoding.md R81 and R93, first byte least significant. The lengths are the
model's choice, notes/assumptions/3.md: two bytes are an event, three a key, and one byte is rejected. So is the
byte of an event's data, notes/assumptions/2.md. -/
def Obligations.WrittenWordsDecode : Prop :=
  decodeBytes [0x00, 0x00] = .ok .startWrite ∧
  decodeBytes [0x01, 0xA5] = .ok (.rxByte 0xA5) ∧
  decodeBytes [0x06, 0x00] = .ok .busGrant ∧
  decodeBytes [0x02, 0x00, 0x00] = .ok .ctrlGetEid ∧
  decodeBytes [0x07, 0x00, 0x00] = .ok (.ctrlUnsupported 0x0007) ∧
  decodeBytes [0x01, 0x51, 0x07] = .ok .fmGetPortState ∧
  decodeBytes [0x00, 0x52, 0x07] = .ok (.fmUnsupported 0x5200) ∧
  decodeBytes [0x00, 0x00, 0x80] = .ok (.msgUnsupported 0x800000) ∧
  decodeBytes [0x00] = .error (.noSuchLength 1)

/-- 30_encoding.md R92, R93: the row that the Frame Context's message type, command set and command select. -/
def Obligations.KeySelectsTheRow : Prop :=
  ∀ c : Ctx,
    (c.msgType = 0x00#8 → decodeKey c.key =
      if c.ctlCmd = 0x01#8 then .ctrlSetEid
      else if c.ctlCmd = 0x02#8 then .ctrlGetEid
      else if c.ctlCmd = 0x03#8 then .ctrlGetUuid
      else if c.ctlCmd = 0x04#8 then .ctrlGetVersion
      else if c.ctlCmd = 0x05#8 then .ctrlGetMsgTypes
      else if c.ctlCmd = 0x06#8 then .ctrlGetVdm
      else .ctrlUnsupported (0x00#8 ++ c.ctlCmd)) ∧
    (c.msgType = 0x07#8 → decodeKey c.key =
      if c.fmSet = 0x51#8 ∧ c.fmCmd = 0x00#8 then .fmIdentifySwitch
      else if c.fmSet = 0x51#8 ∧ c.fmCmd = 0x01#8 then .fmGetPortState
      else if c.fmSet = 0x51#8 ∧ c.fmCmd = 0x02#8 then .fmPhysPortControl
      else if c.fmSet = 0x51#8 ∧ c.fmCmd = 0x03#8 then .fmSendPpbConfig
      else .fmUnsupported (c.fmSet ++ c.fmCmd)) ∧
    (c.msgType ≠ 0x00#8 → c.msgType ≠ 0x07#8 →
      decodeKey c.key = .msgUnsupported (c.msgType ++ 0x00#8 ++ 0x00#8))

/-- 10_state.md R30, R35, 60_exceptions.md R262, 30_encoding.md R82: the numeric values of the enumerations. -/
def Obligations.EnumerationValues : Prop :=
  [St.idle, .rx, .rd, .processRequest, .startSend, .ack].map St.code = [0, 1, 2, 3, 4, 5] ∧
  [ReplyKind.none, .setEid, .getEid, .getUuid, .getVersion, .getMsgTypes, .getVdm, .identifySwitch,
    .getPortState].map ReplyKind.code = [0, 1, 2, 3, 4, 5, 6, 7, 8] ∧
  [FaultCode.none, .rxOutside, .startWriteBusy, .startReadBusy, .finishBusy, .readOutside, .grantUnrequested,
    .ackOutside].map FaultCode.code = [0, 1, 2, 3, 4, 5, 6, 7] ∧
  ∀ (a : Addr7) (b : Byte),
    [Action.reqBus, .txStart a, .txByte b, .txEnd, .busRelease, .readData b].map Action.code = [0, 1, 2, 3, 4, 5]

/-! ### The step -/

/-- The step that takes a delivered event runs the instruction its word decodes to, in the state without that
event; a BUS_GRANT that serves a pending request is the run of the request row its key selects
(30_encoding.md R80; the list of delivered events is the model's, notes/assumptions/1.md, 3.md). -/
def Obligations.StepRunsTheDecodedInstruction : Prop :=
  ∀ (s : State) (w : EventWord) (rest : List Stimulus) (i : Instr),
    s.input = .event w :: rest → decode (.event w) = i → i.wf = true →
      step s = exec i { s with input := rest } ∧
      (i = .busGrant → s.servesRequest = true →
        step s = exec (decodeKey s.ctx.key) { s with input := rest })

/-- BUS_GRANT does what the request row its decode key selects does, in every state (41_ingestion.md R142,
44_responder.md R233, notes/assumptions/3.md). -/
def Obligations.GrantRunsTheSelectedRow : Prop :=
  ∀ s : State, exec .busGrant s = exec (decodeKey s.ctx.key) s

/-- With nothing delivered the block is parked with all state held (70_reset_and_hazards.md R298;
notes/assumptions/1.md). -/
def Obligations.ParkedBlockHoldsItsState : Prop :=
  ∀ s : State, s.input = [] → step s = .next s

/-- A reset, in any state, faulted or not, gives every register its reset value with no output
(70_reset_and_hazards.md R290, R291; notes/assumptions/13.md). -/
def Obligations.ResetStepRestoresEveryRegister : Prop :=
  ∀ (s : State) (rest : List Stimulus), s.input = .reset :: rest →
    step s = .next
      { eid := Config.params.initEid, fault := false, faultCode := .none, ctx := Ctx.cleared,
        rxPos := 0, rxCrc := 0, st := .idle, busReq := false, replyKind := .none, txPos := 0, txLen := 0,
        sendbuf := [], input := rest, output := s.output, draws := s.draws }

/-- 10_state.md R38: the value of every register after reset. -/
def Obligations.ResetValues : Prop :=
  let s := State.reset
  let c := s.ctx
  (c.preamble = 0 ∧ c.byteCount = 0 ∧ c.srcAddr = 0 ∧ c.hdrVer = 0 ∧ c.dstEid = 0 ∧ c.srcEid = 0 ∧
    c.tagByte = 0 ∧ c.msgType = 0) ∧
  (c.ctlFlags = 0 ∧ c.ctlCmd = 0 ∧ c.ctlArg0 = 0 ∧ c.ctlArg1 = 0 ∧ c.arg1Seen = false) ∧
  (c.fmCategory = 0 ∧ c.fmTag = 0 ∧ c.fmCmd = 0 ∧ c.fmSet = 0 ∧ c.fmNports = 0) ∧
  (∀ (i : Nat) (h : i < 10), c.ports[i] = 0) ∧
  s.rxPos = 0 ∧ s.rxCrc = 0 ∧ s.txPos = 0 ∧ s.txLen = 0 ∧ s.replyKind = .none ∧
  s.eid = Config.params.initEid ∧ s.st = .idle ∧ s.busReq = false ∧ s.fault = false ∧ s.faultCode = .none ∧
  (∀ a, s.sendbuf.read a = 0)

/-! ### Faults -/

/-- 41_ingestion.md R130: a faulted block ignores every event. -/
def Obligations.FaultedBlockIgnoresEveryEvent : Prop :=
  ∀ (i : Instr) (s : State), s.fault = true → exec i s = .next s

/-- 60_exceptions.md R262, R264: an illegal event sets `FAULT` and its own code, writes no other register and emits
nothing; a legal one raises no fault. A request row is judged as the BUS_GRANT it is (notes/assumptions/3.md). -/
def Obligations.FaultEntryIsPrecise : Prop :=
  ∀ (i : Instr) (s : State), s.fault = false →
    (∀ code, hostFault i s = some code →
      exec i s = .next { s with fault := true, faultCode := code }) ∧
    (hostFault i s = none → ∀ t, exec i s = .next t → t.fault = false ∧ t.faultCode = s.faultCode)

/-- The model's choice (notes/assumptions/9.md, 10.md): in the states no run reaches, to which the spec gives no
effect, the instruction stops by name. -/
def Obligations.UnreachedStatesStopByName : Prop :=
  ∀ s : State, s.fault = false →
    (s.st = .startSend →
      ∀ i ∈ [Instr.startWrite, .finish, .nack, .startRead], exec i s = .fault .startSendHeld) ∧
    (s.st = .ack → s.txLen.toNat + 1 < s.txPos.toNat → exec .txAck s = .fault .slotPastTerminator) ∧
    (s.st = .ack → s.txPos.toNat < s.txLen.toNat →
      (replyImage Config.params s.replyKind s.eid s.ctx).length ≤ s.txPos.toNat →
      exec .txAck s = .fault .imageIndexOutside)

/-! ### Transaction boundaries -/

/-- 10_state.md R21: `ClearCtx()` writes the clear value of the Frame Context registers and of `RX_POS`, `RX_CRC`,
`TX_POS`, `TX_LEN`, `REPLY_KIND`, and nothing else. -/
def Obligations.ClearCtxWritesExactlyTheTransaction : Prop :=
  ∀ s : State, s.clearCtx =
    { s with
      ctx :=
        { preamble := 0, byteCount := 0, srcAddr := 0, hdrVer := 0, dstEid := 0, srcEid := 0, tagByte := 0,
          msgType := 0, ctlFlags := 0, ctlCmd := 0, ctlArg0 := 0, ctlArg1 := 0, arg1Seen := false,
          fmCategory := 0, fmTag := 0, fmCmd := 0, fmSet := 0, fmNports := 0,
          ports := Vector.replicate 10 0 }
      rxPos := 0, rxCrc := 0, txPos := 0, txLen := 0, replyKind := .none }

/-- 41_ingestion.md R131: START_WRITE begins a new transaction in IDLE, RX and RD and faults while a reply is pending
or in progress. -/
def Obligations.StartWriteBeginsARequest : Prop :=
  ∀ s : State, s.fault = false →
    (s.st = .idle ∨ s.st = .rx ∨ s.st = .rd →
      exec .startWrite s = .next
        { s with
          ctx := Ctx.cleared, rxPos := 0, rxCrc := 0, txPos := 0, txLen := 0, replyKind := .none,
          st := .rx }) ∧
    (s.st = .processRequest ∨ s.st = .ack →
      exec .startWrite s = .next { s with fault := true, faultCode := .startWriteBusy })

/-- 41_ingestion.md R138: START_READ begins a master read in IDLE, RX and RD and faults while a reply is pending or in
progress. -/
def Obligations.StartReadBeginsAMasterRead : Prop :=
  ∀ s : State, s.fault = false →
    (s.st = .idle ∨ s.st = .rx ∨ s.st = .rd →
      exec .startRead s = .next
        { s with
          ctx := Ctx.cleared, rxPos := 0, rxCrc := 0, txPos := 0, txLen := 0, replyKind := .none,
          st := .rd }) ∧
    (s.st = .processRequest ∨ s.st = .ack →
      exec .startRead s = .next { s with fault := true, faultCode := .startReadBusy })

/-- 41_ingestion.md R140: READ_REQ emits one byte, the next draw, and writes no register of the block; the count of
draws is the model's own (notes/assumptions/5.md). -/
def Obligations.ReadReqEmitsADraw : Prop :=
  ∀ s : State, s.fault = false →
    (s.st = .rd →
      exec .readReq s = .next
        { s with output := s.output ++ [.readData (Config.readData s.draws)], draws := s.draws + 1 }) ∧
    (s.st ≠ .rd → exec .readReq s = .next { s with fault := true, faultCode := .readOutside })

/-- 41_ingestion.md R139 with the commit of 42_control_commands.md R172: FINISH in each state. -/
def Obligations.FinishRequestsTheBus : Prop :=
  ∀ s : State, s.fault = false →
    (s.st = .rx →
      exec .finish s = .next
        { s with
          eid :=
            if Config.params.eidCommit = .atFinish ∧ s.ctx.msgType = 0x00#8 ∧ s.ctx.ctlCmd = 0x01#8 ∧
              s.ctx.arg1Seen = true then s.ctx.ctlArg1 else s.eid
          st := .processRequest
          busReq := true
          output := if s.busReq = true then s.output else s.output ++ [.reqBus] }) ∧
    (s.st = .idle ∨ s.st = .rd → exec .finish s = .next { s with st := .idle }) ∧
    (s.st = .processRequest ∨ s.st = .ack →
      exec .finish s = .next { s with fault := true, faultCode := .finishBusy })

/-- 41_ingestion.md R141: NACK in each state. -/
def Obligations.NackAborts : Prop :=
  ∀ s : State, s.fault = false →
    (s.st = .idle → exec .nack s = .next s) ∧
    (s.st = .rx ∨ s.st = .rd ∨ s.st = .processRequest →
      exec .nack s = .next
        { s with
          ctx := Ctx.cleared, rxPos := 0, rxCrc := 0, txPos := 0, txLen := 0, replyKind := .none,
          st := .idle }) ∧
    (s.st = .ack →
      exec .nack s = .next
        { s with
          ctx := Ctx.cleared, rxPos := 0, rxCrc := 0, txPos := 0, txLen := 0, replyKind := .none,
          st := .idle, output := s.output ++ [.txEnd, .busRelease] })

/-! ### Receiving a byte -/

/-- 41_ingestion.md R133: the byte at each of the positions 0..7 goes to its one header register, whatever the other
registers hold. -/
def Obligations.HeaderCapture : Prop :=
  ∀ (s : State) (b : Byte), s.fault = false → s.st = .rx →
    let s1 := { s with rxCrc := crc8Update s.rxCrc b, rxPos := s.rxPos + 1 }
    (s.rxPos = 0 → exec (.rxByte b) s = .next { s1 with ctx := { s.ctx with preamble := b } }) ∧
    (s.rxPos = 1 → exec (.rxByte b) s = .next { s1 with ctx := { s.ctx with byteCount := b } }) ∧
    (s.rxPos = 2 → exec (.rxByte b) s = .next { s1 with ctx := { s.ctx with srcAddr := b } }) ∧
    (s.rxPos = 3 → exec (.rxByte b) s = .next { s1 with ctx := { s.ctx with hdrVer := b } }) ∧
    (s.rxPos = 4 → exec (.rxByte b) s = .next { s1 with ctx := { s.ctx with dstEid := b } }) ∧
    (s.rxPos = 5 → exec (.rxByte b) s = .next { s1 with ctx := { s.ctx with srcEid := b } }) ∧
    (s.rxPos = 6 → exec (.rxByte b) s = .next { s1 with ctx := { s.ctx with tagByte := b } }) ∧
    (s.rxPos = 7 → exec (.rxByte b) s = .next { s1 with ctx := { s.ctx with msgType := b } })

/-- 41_ingestion.md R135 with 30_encoding.md R89: a control byte at position 8 or 9, and the body positions that no
command parses, which change only `RX_CRC` and `RX_POS`. -/
def Obligations.ControlCapture : Prop :=
  ∀ (s : State) (b : Byte), s.fault = false → s.st = .rx → s.ctx.msgType = 0x00#8 →
    let s1 := { s with rxCrc := crc8Update s.rxCrc b, rxPos := sat16 (s.rxPos.toNat + 1) }
    (s.rxPos = 8 → exec (.rxByte b) s = .next { s1 with ctx := { s.ctx with ctlFlags := b } }) ∧
    (s.rxPos = 9 → exec (.rxByte b) s = .next { s1 with ctx := { s.ctx with ctlCmd := b } }) ∧
    (10 ≤ s.rxPos.toNat →
      s.ctx.ctlCmd ≠ 0x01#8 ∧ s.ctx.ctlCmd ≠ 0x04#8 ∧ s.ctx.ctlCmd ≠ 0x06#8 →
      exec (.rxByte b) s = .next s1) ∧
    (12 ≤ s.rxPos.toNat → exec (.rxByte b) s = .next s1)

/-- 42_control_commands.md R171: Set Endpoint ID stores its operation byte and its new EID, and commits the EID in the
same step when `P_EID_COMMIT = IMMEDIATE`. -/
def Obligations.SetEidParseCommits : Prop :=
  ∀ (s : State) (b : Byte),
    s.fault = false → s.st = .rx → s.ctx.msgType = 0x00#8 → s.ctx.ctlCmd = 0x01#8 →
    let s1 := { s with rxCrc := crc8Update s.rxCrc b, rxPos := sat16 (s.rxPos.toNat + 1) }
    (s.rxPos = 10 → exec (.rxByte b) s = .next { s1 with ctx := { s.ctx with ctlArg0 := b } }) ∧
    (s.rxPos = 11 →
      exec (.rxByte b) s = .next
        { s1 with
          ctx := { s.ctx with ctlArg1 := b, arg1Seen := true }
          eid := if Config.params.eidCommit = .immediate then b else s.eid }) ∧
    (12 ≤ s.rxPos.toNat → exec (.rxByte b) s = .next s1)

/-- 42_control_commands.md R176, R179: Get Version and Get Vendor-Defined-Message Support store position 10 and ignore
the rest of the body. -/
def Obligations.OneByteBodiesAreStored : Prop :=
  ∀ (s : State) (b : Byte),
    s.fault = false → s.st = .rx → s.ctx.msgType = 0x00#8 →
    s.ctx.ctlCmd = 0x04#8 ∨ s.ctx.ctlCmd = 0x06#8 →
    let s1 := { s with rxCrc := crc8Update s.rxCrc b, rxPos := sat16 (s.rxPos.toNat + 1) }
    (s.rxPos = 10 → exec (.rxByte b) s = .next { s1 with ctx := { s.ctx with ctlArg0 := b } }) ∧
    (11 ≤ s.rxPos.toNat → exec (.rxByte b) s = .next s1)

/-- 41_ingestion.md R136: an FM-API byte at positions 8..19, and at the body positions of any command but Get Physical
Port State. -/
def Obligations.FmApiCapture : Prop :=
  ∀ (s : State) (b : Byte), s.fault = false → s.st = .rx → s.ctx.msgType = 0x07#8 →
    let s1 := { s with rxCrc := crc8Update s.rxCrc b, rxPos := sat16 (s.rxPos.toNat + 1) }
    (s.rxPos = 8 → exec (.rxByte b) s = .next { s1 with ctx := { s.ctx with fmCategory := b } }) ∧
    (s.rxPos = 9 → exec (.rxByte b) s = .next { s1 with ctx := { s.ctx with fmTag := b } }) ∧
    (s.rxPos = 11 → exec (.rxByte b) s = .next { s1 with ctx := { s.ctx with fmCmd := b } }) ∧
    (s.rxPos = 12 → exec (.rxByte b) s = .next { s1 with ctx := { s.ctx with fmSet := b } }) ∧
    (s.rxPos = 10 ∨ (13 ≤ s.rxPos.toNat ∧ s.rxPos.toNat ≤ 19) → exec (.rxByte b) s = .next s1) ∧
    (20 ≤ s.rxPos.toNat → ¬(s.ctx.fmSet = 0x51#8 ∧ s.ctx.fmCmd = 0x01#8) →
      exec (.rxByte b) s = .next s1)

/-- 43_fmapi_commands.md R210, R211: the port count is clamped to 10 when it is taken; a port ID below the count is
stored at its index and any later byte is discarded. -/
def Obligations.PortListCapture : Prop :=
  ∀ (s : State) (b : Byte),
    s.fault = false → s.st = .rx → s.ctx.msgType = 0x07#8 → s.ctx.fmSet = 0x51#8 → s.ctx.fmCmd = 0x01#8 →
    s.ctx.fmNports.toNat ≤ 10 →
    let s1 := { s with rxCrc := crc8Update s.rxCrc b, rxPos := sat16 (s.rxPos.toNat + 1) }
    (s.rxPos = 20 →
      exec (.rxByte b) s = .next
        { s1 with ctx := { s.ctx with fmNports := if b.toNat ≤ 10 then b else 10 } }) ∧
    (∀ (i : Nat) (h : i < 10), s.rxPos.toNat = 21 + i → i < s.ctx.fmNports.toNat →
      exec (.rxByte b) s = .next { s1 with ctx := { s.ctx with ports := s.ctx.ports.set i b h } }) ∧
    (21 + s.ctx.fmNports.toNat ≤ s.rxPos.toNat → exec (.rxByte b) s = .next s1)

/-- 41_ingestion.md R137: with no sub-context a byte at position 8 or later changes only `RX_CRC` and `RX_POS`. -/
def Obligations.UndecodedTypeCapturesNothing : Prop :=
  ∀ (s : State) (b : Byte),
    s.fault = false → s.st = .rx → s.ctx.msgType ≠ 0x00#8 → s.ctx.msgType ≠ 0x07#8 → 8 ≤ s.rxPos.toNat →
    exec (.rxByte b) s = .next
      { s with rxCrc := crc8Update s.rxCrc b, rxPos := sat16 (s.rxPos.toNat + 1) }

/-- 10_state.md R31: the receive position advances by one for each byte, saturates at 0xFFFF and never wraps. -/
def Obligations.ReceivePositionSaturates : Prop :=
  ∀ (s : State) (b : Byte), s.fault = false → s.st = .rx →
    ∃ t, exec (.rxByte b) s = .next t ∧
      t.rxPos = (if s.rxPos = 0xFFFF#16 then 0xFFFF#16 else s.rxPos + 1) ∧
      s.rxPos.toNat ≤ t.rxPos.toNat ∧ t.rxCrc = crc8Update s.rxCrc b

/-- 30_encoding.md R84–R91, 10_state.md R27, 41_ingestion.md R146, 40_checksum.md R124: START_WRITE and any bytes leave
in each `CTX` register the byte of its position, clamped for the port count, and 0 in a register that no byte came for,
that the message type does not select or that the command does not parse; the CRC of all the bytes and their saturated
number; and nothing else changed but `EID` (42_control_commands.md R171) and the cleared transmit registers. -/
def Obligations.RequestIsReconstructed : Prop :=
  ∀ (s : State) (bytes : List Byte), s.fault = false → s.st = .idle ∨ s.st = .rx ∨ s.st = .rd →
    ∃ t, execAll (receive bytes) s = .next t ∧
      t.st = .rx ∧ t.rxPos = sat16 bytes.length ∧ t.rxCrc = crc8 bytes ∧
      (t.txPos = 0 ∧ t.txLen = 0 ∧ t.replyKind = .none) ∧
      (t.fault = false ∧ t.faultCode = s.faultCode ∧ t.busReq = s.busReq ∧ t.sendbuf = s.sendbuf ∧
        t.output = s.output ∧ t.input = s.input ∧ t.draws = s.draws) ∧
      (t.ctx.preamble = bytes.getD 0 0 ∧ t.ctx.byteCount = bytes.getD 1 0 ∧
        t.ctx.srcAddr = bytes.getD 2 0 ∧ t.ctx.hdrVer = bytes.getD 3 0 ∧ t.ctx.dstEid = bytes.getD 4 0 ∧
        t.ctx.srcEid = bytes.getD 5 0 ∧ t.ctx.tagByte = bytes.getD 6 0 ∧ t.ctx.msgType = bytes.getD 7 0) ∧
      (bytes.getD 7 0 = 0x00#8 →
        let cmd := bytes.getD 9 0
        t.ctx.ctlFlags = bytes.getD 8 0 ∧ t.ctx.ctlCmd = cmd ∧
        t.ctx.ctlArg0 = (if cmd = 0x01#8 ∨ cmd = 0x04#8 ∨ cmd = 0x06#8 then bytes.getD 10 0 else 0) ∧
        t.ctx.ctlArg1 = (if cmd = 0x01#8 then bytes.getD 11 0 else 0) ∧
        t.ctx.arg1Seen = decide (cmd = 0x01#8 ∧ 12 ≤ bytes.length)) ∧
      (bytes.getD 7 0 ≠ 0x00#8 →
        t.ctx.ctlFlags = 0 ∧ t.ctx.ctlCmd = 0 ∧ t.ctx.ctlArg0 = 0 ∧ t.ctx.ctlArg1 = 0 ∧
        t.ctx.arg1Seen = false) ∧
      (bytes.getD 7 0 = 0x07#8 →
        t.ctx.fmCategory = bytes.getD 8 0 ∧ t.ctx.fmTag = bytes.getD 9 0 ∧ t.ctx.fmCmd = bytes.getD 11 0 ∧
        t.ctx.fmSet = bytes.getD 12 0 ∧
        t.ctx.fmNports.toNat =
          if bytes.getD 12 0 = 0x51#8 ∧ bytes.getD 11 0 = 0x01#8 then min (bytes.getD 20 0).toNat 10 else 0) ∧
      (bytes.getD 7 0 ≠ 0x07#8 →
        t.ctx.fmCategory = 0 ∧ t.ctx.fmTag = 0 ∧ t.ctx.fmCmd = 0 ∧ t.ctx.fmSet = 0 ∧ t.ctx.fmNports = 0) ∧
      (∀ (i : Nat) (h : i < 10),
        t.ctx.ports[i] = if i < t.ctx.fmNports.toNat then bytes.getD (21 + i) 0 else 0) ∧
      t.eid =
        (if Config.params.eidCommit = .immediate ∧ bytes.getD 7 0 = 0x00#8 ∧ bytes.getD 9 0 = 0x01#8 ∧
            12 ≤ bytes.length then bytes.getD 11 0 else s.eid)

/-- 42_control_commands.md R171, R172: after FINISH a Set Endpoint ID request with its EID byte has changed `EID`,
whichever way `P_EID_COMMIT` is set. -/
def Obligations.SetEidTakesEffectByFinish : Prop :=
  ∀ (s : State) (bytes : List Byte), s.fault = false → s.st = .idle ∨ s.st = .rx ∨ s.st = .rd →
    bytes.getD 7 0 = 0x00#8 → bytes.getD 9 0 = 0x01#8 → 12 ≤ bytes.length →
    ∃ t, execAll (receive bytes ++ [.finish]) s = .next t ∧ t.st = .processRequest ∧ t.busReq = true ∧
      t.eid = bytes.getD 11 0

/-- 70_reset_and_hazards.md R300: what a block holds before START_WRITE, but for `EID`, does not reach the request it
then reconstructs. -/
def Obligations.StaleStateDoesNotReachTheRequest : Prop :=
  ∀ (s1 s2 : State) (bytes : List Byte),
    s1.fault = false → s2.fault = false → s1.eid = s2.eid →
    s1.st = .idle ∨ s1.st = .rx ∨ s1.st = .rd → s2.st = .idle ∨ s2.st = .rx ∨ s2.st = .rd →
    ∃ t1 t2, execAll (receive bytes) s1 = .next t1 ∧ execAll (receive bytes) s2 = .next t2 ∧
      t1.ctx = t2.ctx ∧ t1.rxPos = t2.rxPos ∧ t1.rxCrc = t2.rxCrc ∧ t1.eid = t2.eid ∧
      t1.txPos = t2.txPos ∧ t1.txLen = t2.txLen ∧ t1.replyKind = t2.replyKind

/-! ### Dispatch and the reply -/

/-- 44_responder.md R233, R234: a request row with a reply selects its kind, starts the transfer to the requester,
stores byte 0 and leaves `ACK` with one byte produced (notes/assumptions/3.md). -/
def Obligations.ReplyRowsStartTheReply : Prop :=
  ∀ s : State, s.fault = false → s.busReq = true → s.st = .processRequest →
    ∀ row ∈ [(Instr.ctrlSetEid, ReplyKind.setEid), (.ctrlGetEid, .getEid), (.ctrlGetUuid, .getUuid),
        (.ctrlGetVersion, .getVersion), (.ctrlGetMsgTypes, .getMsgTypes), (.ctrlGetVdm, .getVdm),
        (.fmIdentifySwitch, .identifySwitch), (.fmGetPortState, .getPortState)],
      exec row.1 s = .next
        { s with
          busReq := false
          replyKind := row.2
          txLen := BitVec.ofNat 8 (replyImage Config.params row.2 s.eid s.ctx).length
          output := s.output ++ [.txStart (s.ctx.srcAddr.extractLsb' 1 7)]
          sendbuf := s.sendbuf.write 0 (s.ctx.srcAddr.extractLsb' 1 7 ++ 0b0#1)
          txPos := 1
          st := .ack }

/-- 42_control_commands.md R181, 43_fmapi_commands.md R213–R215, 44_responder.md R233: a request row without a reply
only gives the bus back and ends the transaction (notes/assumptions/3.md). -/
def Obligations.NoReplyRowsReleaseTheBus : Prop :=
  ∀ (s : State) (low : BitVec 16) (key : Key), s.fault = false → s.busReq = true → s.st = .processRequest →
    ∀ row ∈ [Instr.ctrlUnsupported low, .fmPhysPortControl, .fmSendPpbConfig, .fmUnsupported low,
        .msgUnsupported key],
      exec row s = .next
        { s with
          busReq := false
          output := s.output ++ [.busRelease]
          ctx := Ctx.cleared, rxPos := 0, rxCrc := 0, txPos := 0, txLen := 0, replyKind := .none
          st := .idle }

/-- 41_ingestion.md R142: BUS_GRANT serves the pending request, releases the bus when the request was cancelled, and
faults when no request is outstanding. -/
def Obligations.BusGrantServesOrReleases : Prop :=
  ∀ s : State, s.fault = false →
    (s.busReq = false → exec .busGrant s = .next { s with fault := true, faultCode := .grantUnrequested }) ∧
    (s.busReq = true → s.st ≠ .processRequest →
      exec .busGrant s = .next { s with busReq := false, output := s.output ++ [.busRelease] }) ∧
    (s.busReq = true → s.st = .processRequest →
      let kind := rowReplyKind (decodeKey s.ctx.key)
      (kind = .none →
        exec .busGrant s = .next
          { s with
            busReq := false
            output := s.output ++ [.busRelease]
            ctx := Ctx.cleared, rxPos := 0, rxCrc := 0, txPos := 0, txLen := 0, replyKind := .none
            st := .idle }) ∧
      (kind ≠ .none →
        exec .busGrant s = .next
          { s with
            busReq := false
            replyKind := kind
            txLen := BitVec.ofNat 8 (replyImage Config.params kind s.eid s.ctx).length
            output := s.output ++ [.txStart (s.ctx.srcAddr.extractLsb' 1 7)]
            sendbuf := s.sendbuf.write 0 (s.ctx.srcAddr.extractLsb' 1 7 ++ 0b0#1)
            txPos := 1
            st := .ack }))

/-- 44_responder.md R236: a data slot emits and stores the image byte of its position. -/
def Obligations.DataSlotSendsTheImageByte : Prop :=
  ∀ (s : State) (b : Byte), s.fault = false → s.st = .ack → s.txPos.toNat < s.txLen.toNat →
    (replyImage Config.params s.replyKind s.eid s.ctx)[s.txPos.toNat]? = some b →
    exec .txAck s = .next
      { s with
        sendbuf := s.sendbuf.write s.txPos.toNat b
        output := s.output ++ [.txByte b]
        txPos := s.txPos + 1 }

/-- 44_responder.md R237: the PEC slot emits the CRC-8 of the first `TX_LEN` bytes of the send buffer, seed 0. -/
def Obligations.PecSlotSendsTheChecksum : Prop :=
  ∀ s : State, s.fault = false → s.st = .ack → s.txPos = s.txLen →
    exec .txAck s = .next
      { s with
        output := s.output ++ [.txByte (crc8 ((List.range s.txLen.toNat).map fun i => s.sendbuf.read i))]
        txPos := s.txPos + 1 }

/-- 44_responder.md R238: the terminator slot sends no data byte, ends the transfer, releases the bus and clears the
transaction. -/
def Obligations.TerminatorSlotReleasesTheBus : Prop :=
  ∀ s : State, s.fault = false → s.st = .ack → s.txPos.toNat = s.txLen.toNat + 1 →
    exec .txAck s = .next
      { s with
        output := s.output ++ [.txEnd, .busRelease]
        ctx := Ctx.cleared, rxPos := 0, rxCrc := 0, txPos := 0, txLen := 0, replyKind := .none
        st := .idle }

/-- 44_responder.md R237, 40_checksum.md R126: in a state that meets the invariant the PEC is the CRC-8 of the whole
image, and the image with its PEC has CRC 0. -/
def Obligations.PecCoversTheWholeImage : Prop :=
  ∀ s : State, s.Inv → s.fault = false → s.st = .ack → s.txPos = s.txLen →
    ∃ t, exec .txAck s = .next t ∧
      let img := replyImage Config.params s.replyKind s.eid s.ctx
      t.output = s.output ++ [.txByte (crc8 img)] ∧ crc8 (img ++ [crc8 img]) = 0

/-- 44_responder.md R239, 70_reset_and_hazards.md R301: BUS_GRANT and L + 1 TX_ACK send the whole reply, in order, and
leave the block complete (R299) with `EID` as it was. -/
def Obligations.WholeReplyIsSent : Prop :=
  ∀ s : State, s.fault = false → s.busReq = true → s.st = .processRequest →
    s.ctx.fmNports.toNat ≤ portCap → s.sendbuf.wf = true →
    rowReplyKind (decodeKey s.ctx.key) ≠ .none →
    let img := replyImage Config.params (rowReplyKind (decodeKey s.ctx.key)) s.eid s.ctx
    ∃ t, execAll (.busGrant :: List.replicate (img.length + 1) .txAck) s = .next t ∧
      t.output = s.output ++ [.txStart (s.ctx.srcAddr.extractLsb' 1 7)] ++
        (img.tail ++ [crc8 img]).map .txByte ++ [.txEnd, .busRelease] ∧
      t.ctx = Ctx.cleared ∧ t.eid = s.eid ∧ t.complete = true

/-- 42_control_commands.md R174, the source's property: after Set Endpoint ID with an EID byte, a Get Endpoint ID
transaction's reply carries the payload `00 new_eid 00 00`. The first request may replace one that was being received,
and may be served by a grant still outstanding for a cancelled one (41_ingestion.md R131, R139). -/
def Obligations.GetEidReturnsTheAssignedEid : Prop :=
  ∀ (s : State) (set get : List Byte),
    s.fault = false → s.st = .idle ∨ s.st = .rx ∨ s.st = .rd → s.sendbuf.wf = true →
    set.getD 7 0 = 0x00#8 → set.getD 9 0 = 0x01#8 → 12 ≤ set.length →
    get.getD 7 0 = 0x00#8 → get.getD 9 0 = 0x02#8 →
    ∃ t front pec,
      execAll
        (receive set ++ [.finish, .busGrant] ++ List.replicate 16 .txAck ++
          (receive get ++ [.finish, .busGrant] ++ List.replicate 16 .txAck)) s = .next t ∧
      t.complete = true ∧
      t.output = front ++ ([0x00, set.getD 11 0, 0x00, 0x00, pec].map .txByte) ++ [.txEnd, .busRelease]

/-- 44_responder.md R242, 70_reset_and_hazards.md R300: the same request, with the same `EID`, `BUS_REQ` and
configuration, gives the same outputs, whatever else the two blocks held before and however many TX_ACK follow.
`BUS_REQ` decides whether FINISH emits REQ_BUS (41_ingestion.md R139). -/
def Obligations.IdenticalRequestsGetIdenticalReplies : Prop :=
  ∀ (s1 s2 : State) (bytes : List Byte) (n : Nat),
    s1.fault = false → s2.fault = false → s1.eid = s2.eid → s1.busReq = s2.busReq →
    s1.st = .idle ∨ s1.st = .rx ∨ s1.st = .rd → s2.st = .idle ∨ s2.st = .rx ∨ s2.st = .rd →
    s1.sendbuf.wf = true → s2.sendbuf.wf = true →
    let run := receive bytes ++ [.finish, .busGrant] ++ List.replicate n .txAck
    ∃ t1 t2 acts, execAll run s1 = .next t1 ∧ execAll run s2 = .next t2 ∧
      t1.output = s1.output ++ acts ∧ t2.output = s2.output ++ acts ∧ t1.eid = t2.eid

/-! ### What the replies say -/

/-- 44_responder.md R232: the nine bytes of the reply header. -/
def Obligations.ReplyHeaderBytes : Prop :=
  ∀ (p : Params) (kind : ReplyKind) (eid : Byte) (c : Ctx), kind ≠ .none →
    (replyImage p kind eid c).take 9 =
      [c.srcAddr.extractLsb' 1 7 ++ 0b0#1, 0x0F, BitVec.ofNat 8 ((replyImage p kind eid c).length - 3),
       p.ownAddr7 ++ 0b1#1, 0x01, c.srcEid, c.dstEid,
       0b1#1 ++ 0b1#1 ++ 0b00#2 ++ 0b0#1 ++ c.tagByte.extractLsb' 0 3, c.msgType]

/-- 42_control_commands.md R170, R173, R174, R175, R177, R178, R180: sub-header and payload of each control reply. -/
def Obligations.ControlReplyBytes : Prop :=
  ∀ (p : Params) (eid : Byte) (c : Ctx),
    let sub := [0b000#3 ++ c.ctlFlags.extractLsb' 0 5, c.ctlCmd]
    (replyImage p .setEid eid c).drop 9 = sub ++ [0x00, 0x00, eid, 0x00] ∧
    (replyImage p .getEid eid c).drop 9 = sub ++ [0x00, eid, 0x00, 0x00] ∧
    (replyImage p .getUuid eid c).drop 9 = sub ++ 0x00 :: List.ofFn p.uuid ∧
    (replyImage p .getVersion eid c).drop 9 = sub ++ [0x00, 0x01, 0x03, 0x01, 0x00, 0x00] ∧
    (replyImage p .getMsgTypes eid c).drop 9 = sub ++ [0x00, 0x02, 0x00, 0x07] ∧
    (replyImage p .getVdm eid c).drop 9 =
      sub ++ [0x00, p.vdmVendorId.extractLsb' 8 8, p.vdmVendorId.extractLsb' 0 8, 0xFF]

/-- 43_fmapi_commands.md R201: the FM-API sub-header echoes tag, command and set and declares the payload's length,
little-endian. -/
def Obligations.FmApiSubHeaderBytes : Prop :=
  ∀ (p : Params) (kind : ReplyKind) (eid : Byte) (c : Ctx),
    kind = .identifySwitch ∨ kind = .getPortState →
    let plen := BitVec.ofNat 20 ((replyImage p kind eid c).length - 21)
    ((replyImage p kind eid c).drop 9).take 12 =
      [0x01, c.fmTag, 0x00, c.fmCmd, c.fmSet, plen.extractLsb' 0 8, plen.extractLsb' 8 8,
       0b0000#4 ++ plen.extractLsb' 16 4, 0x00, 0x00, 0x00, 0x00]

/-- 43_fmapi_commands.md R209: the Identify Switch payload, bit for bit in its two masks. -/
def Obligations.IdentifySwitchPayload : Prop :=
  ∀ (p : Params) (eid : Byte) (c : Ctx),
    let payload := (replyImage p .identifySwitch eid c).drop 21
    payload.length = 72 ∧
    payload.take 4 = [p.idIngressPort, 0x00, 0x0A, BitVec.ofNat 8 (p.idNumVcsPred.val + 1)] ∧
    (∀ i, i < 32 → ∀ j, j < 8 →
      ((payload.getD (4 + i) 0).getLsbD j = decide (8 * i + j < 10)) ∧
      ((payload.getD (36 + i) 0).getLsbD j = decide (8 * i + j < p.idNumVcsPred.val + 1))) ∧
    payload.drop 68 =
      [p.idTotalVppb.extractLsb' 0 8, p.idTotalVppb.extractLsb' 8 8,
       p.idBoundVppb.extractLsb' 0 8, p.idBoundVppb.extractLsb' 8 8]

/-- 43_fmapi_commands.md R203, R204: the block of an upstream and of a downstream port. -/
def Obligations.PortBlockBytes : Prop :=
  ∀ (p : Params) (port : Byte),
    (port.toNat < 2 → portBlock p port =
      [port, 0b0000#4 ++ p.cfgUsp, 0x00, 0x00, 0x00, 0x02, 0x10, 0x10,
       0x1C, 0x05, 0x05, p.ltssm, 0x00, 0x00, 0x00, 0x00]) ∧
    (2 ≤ port.toNat → portBlock p port =
      [port, 0b0000#4 ++ p.cfgDsp, 0x02, 0x00, 0x04, 0x02, 0x10, 0x10,
       0x1C, 0x05, 0x05, p.ltssm, 0x00, 0x00, 0x00, 0x03])

/-- 43_fmapi_commands.md R212: the Get Physical Port State payload reports one block for each port requested, in the
order requested. -/
def Obligations.PortBlocksInRequestOrder : Prop :=
  ∀ (p : Params) (eid : Byte) (c : Ctx), c.fmNports.toNat ≤ 10 →
    let payload := (replyImage p .getPortState eid c).drop 21
    payload.length = 4 + 16 * c.fmNports.toNat ∧
    payload.take 4 = [c.fmNports, 0x00, 0x00, 0x00] ∧
    ∀ (i : Nat) (h : i < 10), i < c.fmNports.toNat →
      (payload.drop (4 + 16 * i)).take 16 = portBlock p c.ports[i]

/-- 44_responder.md R235, R241(a): the length of each reply image, at most 185 bytes, and its byte count. -/
def Obligations.ReplyLengths : Prop :=
  ∀ (p : Params) (eid : Byte) (c : Ctx), c.fmNports.toNat ≤ 10 →
    (replyImage p .setEid eid c).length = 15 ∧ (replyImage p .getEid eid c).length = 15 ∧
    (replyImage p .getUuid eid c).length = 28 ∧ (replyImage p .getVersion eid c).length = 17 ∧
    (replyImage p .getMsgTypes eid c).length = 15 ∧ (replyImage p .getVdm eid c).length = 15 ∧
    (replyImage p .identifySwitch eid c).length = 93 ∧
    (replyImage p .getPortState eid c).length = 25 + 16 * c.fmNports.toNat ∧
    ∀ kind, kind ≠ .none →
      (replyImage p kind eid c).length ≤ 185 ∧
      ((replyImage p kind eid c).getD 2 0).toNat + 3 = (replyImage p kind eid c).length

/-- 44_responder.md R241: what holds of every reply a dispatched request gets. -/
def Obligations.ReplyImageInvariants : Prop :=
  ∀ (p : Params) (eid : Byte) (c : Ctx), c.fmNports.toNat ≤ 10 →
    let kind := rowReplyKind (decodeKey c.key)
    let img := replyImage p kind eid c
    kind ≠ .none →
      (img.getD 2 0).toNat + 3 = img.length ∧
      img.getD 8 0 = c.msgType ∧ (c.msgType = 0x00#8 ∨ c.msgType = 0x07#8) ∧
      img.getD 5 0 = c.srcEid ∧ img.getD 6 0 = c.dstEid ∧
      crc8 (img ++ [crc8 img]) = 0x00 ∧
      (kind = .getPortState →
        (img.getD 14 0).toNat + (img.getD 15 0).toNat * 256 + (img.getD 16 0).toNat * 65536 =
          4 + 16 * (img.getD 21 0).toNat)

/-! ### The checksum -/

/-- 40_checksum.md R121: `crc8_update` is eight shifts with the polynomial 0x07 and depends only on `c XOR b`. -/
def Obligations.ChecksumUpdateIsEightShifts : Prop :=
  (∀ c b : Byte, crc8Update c b =
    (fun x : Byte => if x.getLsbD 7 = true then (x <<< 1) ^^^ 0x07#8 else x <<< 1)^[8] (c ^^^ b)) ∧
  (∀ c b c' b' : Byte, c ^^^ b = c' ^^^ b' → crc8Update c b = crc8Update c' b') ∧
  crc8Update 0x00 0x00 = 0x00 ∧ crc8Update 0x00 0x01 = 0x07 ∧ crc8Update 0x00 0xFF = 0xF3 ∧
  crc8Update 0x5A 0xA5 = 0xF3 ∧ crc8Update 0x00 0x80 = 0x89

/-- 40_checksum.md R122: the CRC of a joined sequence goes on from the first part's, and a sequence with its own CRC
appended has CRC 0. -/
def Obligations.ChecksumOfSequences : Prop :=
  (∀ a b : List Byte, crc8 (a ++ b) = crc8From (crc8 a) b) ∧
  (∀ m : List Byte, crc8 (m ++ [crc8 m]) = 0x00) ∧ crc8 [] = 0x00

/-! ### Rules about the whole machine -/

/-- 10_state.md R28: no instruction changes `EID` but the RX_BYTE at position 11 of a Set Endpoint ID request
(IMMEDIATE) or the FINISH of one whose position 11 was taken (AT_FINISH). -/
def Obligations.OnlySetEidWritesEid : Prop :=
  ∀ (i : Instr) (s t : State), exec i s = .next t → t.eid ≠ s.eid →
    s.fault = false ∧ s.st = .rx ∧ s.ctx.msgType = 0x00#8 ∧ s.ctx.ctlCmd = 0x01#8 ∧
    ((Config.params.eidCommit = .immediate ∧ s.rxPos = 11 ∧ i = .rxByte t.eid) ∨
     (Config.params.eidCommit = .atFinish ∧ i = .finish ∧ s.ctx.arg1Seen = true ∧ t.eid = s.ctx.ctlArg1))

/-- 20_memory.md R62: an instruction changes no send-buffer byte but the one at the index it stores to, and stores only
when a reply starts or in a data slot. -/
def Obligations.SendBufferFrame : Prop :=
  ∀ (i : Instr) (s t : State), exec i s = .next t →
    ∀ a, storeIndex i s ≠ some a → t.sendbuf.read a = s.sendbuf.read a

/-- 20_memory.md R71: an instruction only appends to the output stream, at most two actions, and leaves what is still
to be delivered (the two lists are the model's own, notes/assumptions/1.md, 4.md). -/
def Obligations.OutputsAreAppended : Prop :=
  ∀ (i : Instr) (s t : State), exec i s = .next t →
    t.input = s.input ∧ ∃ acts : List Action, acts.length ≤ 2 ∧ t.output = s.output ++ acts

/-- 41_ingestion.md R145: no instruction but BUS_GRANT (or the request row it is) starts a reply. -/
def Obligations.OnlyAGrantStartsAReply : Prop :=
  ∀ (i : Instr) (s t : State) (a : Addr7), exec i s = .next t →
    countAction (.txStart a) t.output ≠ countAction (.txStart a) s.output →
    i.isGrant = true ∧ s.fault = false ∧ s.busReq = true ∧ s.st = .processRequest

/-- 41_ingestion.md R144: the state each event leaves. -/
def Obligations.TransitionSummary : Prop :=
  ∀ (i : Instr) (s t : State), s.fault = false → exec i s = .next t →
    t.st ∈ allowedSt i s.st s.busReq

/-- 20_memory.md R73, 60_exceptions.md R276 (duty 2): every instruction keeps the balance of the bus, REQ_BUS emitted =
BUS_RELEASE emitted + the request outstanding (`BUS_REQ`) + the grant held for a reply (`ST = ACK`). It does not say
that a request is ever answered: a faulted block (R264), a parked one (70_reset_and_hazards.md R298) and one that is
reset (R291) leave requests unanswered. -/
def Obligations.BusBalanceIsKept : Prop :=
  ∀ (i : Instr) (s t : State), busBalanced s → exec i s = .next t → busBalanced t

/-- No instruction stops in a state that meets the invariant: the model's stops belong to states no run reaches
(10_state.md R30, 44_responder.md R235; notes/assumptions/9.md, 10.md). -/
def Obligations.NothingStopsUnderTheInvariant : Prop :=
  ∀ (i : Instr) (s : State), s.Inv → ∃ t, exec i s = .next t

/-- The invariant holds at reset (10_state.md R38). -/
def Obligations.ResetMeetsTheInvariant : Prop := State.reset.Inv

/-- Every step keeps the invariant: the count bound of 10_state.md R26, the unheld START_SEND of R30, the unreachable
cells of 41_ingestion.md R144, the cleared registers of 30_encoding.md R91, and the reply in progress of 44_responder.md. -/
def Obligations.StepKeepsTheInvariant : Prop :=
  ∀ s t : State, s.Inv → step s = .next t → t.Inv
end

