-- ==== Sys2Proof/Laws/Bits.lean ====
section
/-! SUPPORT. Bit-field facts: the masks of the opcode map as comparisons of fields. -/

namespace Sys2Proof

/-- The mask 0xFFFFFF keeps the whole key. -/
@[simp] theorem key_and_all (k : Key) : k &&& 0xFFFFFF#24 = k := BitVec.and_allOnes

/-- A key is its message type before its low 16 bits. -/
theorem key_split (k : Key) : k.extractLsb' 16 8 ++ k.extractLsb' 0 16 = k := by
  apply BitVec.eq_of_getLsbD_eq
  intro i hi
  simp only [BitVec.getLsbD_append, BitVec.getLsbD_extractLsb']
  by_cases h : i < 16
  · simp [h]
  · have : i - 16 < 8 := by omega
    simp [h, this, show 16 + (i - 16) = i by omega]

/-- The mask 0xFF0000 keeps the message type. -/
theorem key_and_type (hi : Byte) (lo : BitVec 16) :
    (hi ++ lo : Key) &&& 0xFF0000#24 = hi ++ 0#16 := by
  rw [show (0xFF0000#24 : Key) = BitVec.allOnes 8 ++ 0#16 from rfl, BitVec.and_append,
    BitVec.and_allOnes, BitVec.and_zero]

@[simp] theorem append_type (hi : Byte) (lo : BitVec 16) :
    (hi ++ lo : Key).extractLsb' 16 8 = hi := by
  apply BitVec.eq_of_getLsbD_eq
  intro i hi'
  simp only [BitVec.getLsbD_append, BitVec.getLsbD_extractLsb']
  simp [hi', show ¬ 16 + i < 16 by omega]

@[simp] theorem append_low (hi : Byte) (lo : BitVec 16) :
    (hi ++ lo : Key).extractLsb' 0 16 = lo := by
  apply BitVec.eq_of_getLsbD_eq
  intro i hi'
  simp only [BitVec.getLsbD_append, BitVec.getLsbD_extractLsb']
  simp [hi']

/-- Two keys are the same exactly where their message types and low bits are. -/
theorem append_inj (hi hi' : Byte) (lo lo' : BitVec 16) :
    (hi ++ lo : Key) = hi' ++ lo' ↔ hi = hi' ∧ lo = lo' := by
  constructor
  · intro h
    exact ⟨by rw [← append_type hi lo, h, append_type], by rw [← append_low hi lo, h, append_low]⟩
  · rintro ⟨rfl, rfl⟩
    rfl

/-- The code of an event word. -/
@[simp] theorem eventWord_code (code : BitVec 3) (data : Byte) :
    (eventWord code data).extractLsb' 0 3 = code := by
  apply BitVec.eq_of_getLsbD_eq
  intro i hi
  simp only [eventWord, BitVec.getLsbD_append, BitVec.getLsbD_extractLsb']
  simp [hi]

/-- The data byte of an event word. -/
@[simp] theorem eventWord_data (code : BitVec 3) (data : Byte) :
    (eventWord code data).extractLsb' 8 8 = data := by
  apply BitVec.eq_of_getLsbD_eq
  intro i hi
  simp only [eventWord, BitVec.getLsbD_append, BitVec.getLsbD_extractLsb']
  simp [hi, show ¬ 8 + i < 3 by omega, show ¬ 8 + i - 3 < 5 by omega, show 8 + i - 3 - 5 = i by omega]

/-- The opcode map by message type and low bits: each mask test of `decodeKey` is one comparison. -/
theorem decodeKey_append (mt : Byte) (low : BitVec 16) :
    decodeKey (mt ++ low) =
      if mt = 0x00#8 then
        (if low = 0x0001#16 then .ctrlSetEid
         else if low = 0x0002#16 then .ctrlGetEid
         else if low = 0x0003#16 then .ctrlGetUuid
         else if low = 0x0004#16 then .ctrlGetVersion
         else if low = 0x0005#16 then .ctrlGetMsgTypes
         else if low = 0x0006#16 then .ctrlGetVdm
         else .ctrlUnsupported low)
      else if mt = 0x07#8 then
        (if low = 0x5100#16 then .fmIdentifySwitch
         else if low = 0x5101#16 then .fmGetPortState
         else if low = 0x5102#16 then .fmPhysPortControl
         else if low = 0x5103#16 then .fmSendPpbConfig
         else .fmUnsupported low)
      else .msgUnsupported (mt ++ low) := by
  have e (h : Byte) (l : BitVec 16) (k : Key) (hk : k = h ++ l) :
      (mt ++ low : Key) = k ↔ mt = h ∧ low = l := by rw [hk, append_inj]
  unfold decodeKey
  simp only [key_and_all, key_and_type, append_low,
    e 0x00#8 0x0001#16 0x000001#24 rfl, e 0x00#8 0x0002#16 0x000002#24 rfl,
    e 0x00#8 0x0003#16 0x000003#24 rfl, e 0x00#8 0x0004#16 0x000004#24 rfl,
    e 0x00#8 0x0005#16 0x000005#24 rfl, e 0x00#8 0x0006#16 0x000006#24 rfl,
    e 0x07#8 0x5100#16 0x075100#24 rfl, e 0x07#8 0x5101#16 0x075101#24 rfl,
    e 0x07#8 0x5102#16 0x075102#24 rfl, e 0x07#8 0x5103#16 0x075103#24 rfl]
  have m0 : (mt ++ 0#16 : Key) = 0x000000#24 ↔ mt = 0x00#8 := by
    rw [show (0x000000#24 : Key) = 0x00#8 ++ 0#16 from rfl, append_inj]; simp
  have m7 : (mt ++ 0#16 : Key) = 0x070000#24 ↔ mt = 0x07#8 := by
    rw [show (0x070000#24 : Key) = 0x07#8 ++ 0#16 from rfl, append_inj]; simp
  simp only [m0, m7]
  by_cases h0 : mt = 0x00#8
  · simp [h0]
  · by_cases h7 : mt = 0x07#8
    · subst h7; simp
    · simp [h0, h7]

end Sys2Proof
end

