-- ==== Sys2Proof/Laws/Image.lean ====
section
/-! SUPPORT. The reply image: its parts, the lengths of the parts, and its first byte. -/

namespace Sys2Proof.Machine

open Sys2Proof

@[simp] theorem replyHeader_length (p : Params) (c : Ctx) (len : Nat) : (replyHeader p c len).length = 9 := rfl

@[simp] theorem controlSubHeader_length (c : Ctx) : (controlSubHeader c).length = 2 := rfl

@[simp] theorem fmSubHeader_length (c : Ctx) (plen : Nat) : (fmSubHeader c plen).length = 12 := rfl

@[simp] theorem le16_length (v : BitVec 16) : (le16 v).length = 2 := rfl

@[simp] theorem mask256_length (n : Nat) : (mask256 n).length = 32 := by simp [mask256]

@[simp] theorem portBlock_length (p : Params) (port : Byte) : (portBlock p port).length = 16 := by
  unfold portBlock
  split <;> rfl

/-- The blocks of a list of ports, one after the other. -/
@[simp] theorem flatMap_portBlock_length (p : Params) :
    ∀ ids : List Byte, (ids.flatMap (portBlock p)).length = 16 * ids.length
  | [] => rfl
  | port :: ids => by
    rw [List.flatMap_cons, List.length_append, portBlock_length, flatMap_portBlock_length p ids,
      List.length_cons]
    omega

/-- While `FM_NPORTS ≤ 10` every requested port is in `CTX.PORTS`. -/
theorem requestedPorts_length {c : Ctx} (h : c.fmNports.toNat ≤ 10) :
    (requestedPorts c).length = c.fmNports.toNat := by
  simp only [requestedPorts, List.length_take, Vector.length_toList]
  omega

/-- The image of a reply, whatever its kind: the header and the body (44_responder.md R231). -/
theorem replyImage_eq (p : Params) {kind : ReplyKind} (hk : kind ≠ .none) (eid : Byte) (c : Ctx) :
    replyImage p kind eid c =
      replyHeader p c (9 + (replyBody p kind eid c).length) ++ replyBody p kind eid c := by
  cases kind <;> first | rfl | exact absurd rfl hk

/-- Byte 0 of every image is the requester's address (44_responder.md R232, R234). -/
theorem replyImage_head (p : Params) {kind : ReplyKind} (hk : kind ≠ .none) (eid : Byte) (c : Ctx) :
    (replyImage p kind eid c)[0]? = some (addressByte c) := by
  rw [replyImage_eq p hk]
  rfl

end Sys2Proof.Machine
end

