-- ==== Sys2Proof/Laws/Memory.lean ====
section
/-! SUPPORT. The send buffer: read after write, canonical form, and equality of canonical buffers. -/

namespace Sys2Proof.Machine

open Sys2Proof

namespace MemoryLaws

/-! ### Reading -/

@[simp] theorem read_nil (a : Nat) : Memory.read [] a = 0 := rfl

theorem read_cons (k : Nat) (v : Byte) (m : Memory) (a : Nat) :
    Memory.read ((k, v) :: m) a = if k = a then v else Memory.read m a := rfl

/-- Below the least index everything reads 0x00. -/
theorem read_below {low : Nat} : ∀ {m : Memory}, Memory.risesFrom low m = true →
    ∀ {a}, a < low → m.read a = 0
  | [], _, _, _ => rfl
  | (k, v) :: m, h, a, ha => by
    simp only [Memory.risesFrom, Bool.and_eq_true, decide_eq_true_eq] at h
    rw [read_cons, if_neg (by omega), read_below h.2 (by omega)]

theorem risesFrom_mono {low low' : Nat} (hl : low' ≤ low) :
    ∀ {m : Memory}, Memory.risesFrom low m = true → Memory.risesFrom low' m = true
  | [], _ => rfl
  | (k, v) :: m, h => by
    simp only [Memory.risesFrom, Bool.and_eq_true, decide_eq_true_eq] at h ⊢
    exact ⟨⟨by omega, h.1.2⟩, h.2⟩

/-- A write leaves every other index alone, whatever the buffer. -/
theorem read_write_other {a a' : Nat} (hne : a' ≠ a) (b : Byte) :
    ∀ m : Memory, (m.write a b).read a' = m.read a'
  | [] => by
    unfold Memory.write
    split
    · rfl
    · rw [read_cons, if_neg (by omega)]
  | (k, v) :: m => by
    unfold Memory.write
    split
    · split
      · rfl
      · rw [read_cons a, if_neg (by omega)]
    · split
      · next hak =>
        subst hak
        split
        · rw [read_cons, if_neg (by omega)]
        · rw [read_cons, read_cons, if_neg (by omega), if_neg (by omega)]
      · rw [read_cons, read_cons, read_write_other hne b m]

/-- In a canonical buffer a read after a write to the same index gives the byte written. -/
theorem read_write_same_of_rises (a : Nat) (b : Byte) :
    ∀ {low : Nat} {m : Memory}, Memory.risesFrom low m = true → (m.write a b).read a = b
  | _, [], _ => by
    unfold Memory.write
    split
    · next hb => simp [hb]
    · simp [read_cons]
  | low, (k, v) :: m, h => by
    simp only [Memory.risesFrom, Bool.and_eq_true, decide_eq_true_eq] at h
    unfold Memory.write
    split
    · split
      · next hb =>
        rw [read_cons, if_neg (by omega), read_below h.2 (by omega), hb]
      · simp [read_cons]
    · split
      · next hak =>
        subst hak
        split
        · next hb => rw [read_below h.2 (by omega), hb]
        · simp [read_cons]
      · rw [read_cons, if_neg (by omega), read_write_same_of_rises a b h.2]

theorem rises_write (a : Nat) (b : Byte) :
    ∀ {low : Nat} {m : Memory}, low ≤ a → Memory.risesFrom low m = true →
      Memory.risesFrom low (m.write a b) = true
  | _, [], hl, _ => by
    unfold Memory.write
    split
    · rfl
    · next hb => simpa [Memory.risesFrom, hl] using hb
  | low, (k, v) :: m, hl, h => by
    have h' := h
    simp only [Memory.risesFrom, Bool.and_eq_true, decide_eq_true_eq] at h
    unfold Memory.write
    split
    · split
      · exact h'
      · next hb =>
        simp only [Memory.risesFrom, Bool.and_eq_true, decide_eq_true_eq]
        exact ⟨⟨hl, hb⟩, ⟨by omega, h.1.2⟩, h.2⟩
    · split
      · next hak =>
        subst hak
        split
        · exact risesFrom_mono (by omega) h.2
        · next hb =>
          simp only [Memory.risesFrom, Bool.and_eq_true, decide_eq_true_eq]
          exact ⟨⟨hl, hb⟩, h.2⟩
      · simp only [Memory.risesFrom, Bool.and_eq_true, decide_eq_true_eq]
        exact ⟨h.1, rises_write a b (by omega) h.2⟩

theorem all_write (P : Host.Cell → Bool) (a : Nat) (b : Byte) (hab : P (a, b) = true) :
    ∀ {m : Memory}, m.all P = true → (m.write a b).all P = true
  | [], _ => by
    unfold Memory.write
    split
    · rfl
    · simp [hab]
  | (k, v) :: m, h => by
    have h' := h
    simp only [List.all_cons, Bool.and_eq_true] at h
    unfold Memory.write
    split
    · split
      · exact h'
      · simp [hab, h.1, h.2]
    · split
      · split
        · exact h.2
        · simp [hab, h.2]
      · simp [h.1, all_write P a b hab h.2]

end MemoryLaws

open MemoryLaws

/-! ### The canonical form -/

@[simp] theorem wf_nil : Memory.wf [] = true := rfl

/-- The send buffer after reset is in canonical form. -/
theorem State.reset_sendbuf_wf : State.reset.sendbuf.wf = true := rfl

/-- A write below the buffer's capacity keeps the canonical form. -/
theorem wf_write {m : Memory} (h : m.wf = true) {a : Nat} (ha : a < sendbufCap) (b : Byte) :
    (m.write a b).wf = true := by
  simp only [Memory.wf, Bool.and_eq_true] at h ⊢
  exact ⟨rises_write a b (Nat.zero_le a) h.1, all_write _ a b (by simpa using ha) h.2⟩

/-- The operation `SENDBUF[i] <- b` keeps the canonical form: an index is a byte. -/
theorem State.writeSendbuf_wf {s : State} (h : s.sendbuf.wf = true) (i b : Byte) :
    (s.writeSendbuf i b).sendbuf.wf = true :=
  wf_write h (by have := i.isLt; simp only [sendbufCap]; omega) b

theorem read_write_same {m : Memory} (h : m.wf = true) (a : Nat) (b : Byte) :
    (m.write a b).read a = b := by
  simp only [Memory.wf, Bool.and_eq_true] at h
  exact read_write_same_of_rises a b h.1

theorem read_write_other {a a' : Nat} (hne : a' ≠ a) (m : Memory) (b : Byte) :
    (m.write a b).read a' = m.read a' :=
  MemoryLaws.read_write_other hne b m

/-- Canonical buffers that read alike are the same data. -/
theorem eq_of_read_eq : ∀ {low : Nat} {m m' : Memory}, Memory.risesFrom low m = true →
    Memory.risesFrom low m' = true → (∀ a, m.read a = m'.read a) → m = m'
  | _, [], [], _, _, _ => rfl
  | _, [], (k, v) :: m', _, h', he => by
    simp only [Memory.risesFrom, Bool.and_eq_true, decide_eq_true_eq] at h'
    have := he k
    simp only [read_nil, read_cons, if_true] at this
    exact absurd this.symm h'.1.2
  | _, (k, v) :: m, [], h, _, he => by
    simp only [Memory.risesFrom, Bool.and_eq_true, decide_eq_true_eq] at h
    have := he k
    simp only [read_nil, read_cons, if_true] at this
    exact absurd this h.1.2
  | low, (k, v) :: m, (k', v') :: m', h, h', he => by
    simp only [Memory.risesFrom, Bool.and_eq_true, decide_eq_true_eq] at h h'
    have hk : k = k' := by
      rcases Nat.lt_trichotomy k k' with hlt | heq | hgt
      · have := he k
        rw [read_cons, if_pos rfl, read_cons, if_neg (by omega), read_below h'.2 (by omega)] at this
        exact absurd this h.1.2
      · exact heq
      · have := he k'
        rw [read_cons, if_neg (by omega), read_below h.2 (by omega), read_cons, if_pos rfl] at this
        exact absurd this.symm h'.1.2
    subst hk
    have hv : v = v' := by simpa [read_cons] using he k
    subst hv
    have hm : m = m' := eq_of_read_eq h.2 h'.2 fun a => by
      by_cases ha : a = k
      · subst ha
        rw [read_below h.2 (by omega), read_below h'.2 (by omega)]
      · simpa [read_cons, Ne.symm ha] using he a
    rw [hm]

end Sys2Proof.Machine
end

