-- ==== Sys2Proof/Laws/State.lean ====
section
/-! SUPPORT. One lemma for each field under each update of the state. -/

namespace Sys2Proof.Machine

open Sys2Proof

/-! ### State.emit -/

section
variable (s : State) (a : Action)

@[simp] theorem State.emit_eid : (s.emit a).eid = s.eid := rfl
@[simp] theorem State.emit_fault : (s.emit a).fault = s.fault := rfl
@[simp] theorem State.emit_faultCode : (s.emit a).faultCode = s.faultCode := rfl
@[simp] theorem State.emit_ctx : (s.emit a).ctx = s.ctx := rfl
@[simp] theorem State.emit_rxPos : (s.emit a).rxPos = s.rxPos := rfl
@[simp] theorem State.emit_rxCrc : (s.emit a).rxCrc = s.rxCrc := rfl
@[simp] theorem State.emit_st : (s.emit a).st = s.st := rfl
@[simp] theorem State.emit_busReq : (s.emit a).busReq = s.busReq := rfl
@[simp] theorem State.emit_replyKind : (s.emit a).replyKind = s.replyKind := rfl
@[simp] theorem State.emit_txPos : (s.emit a).txPos = s.txPos := rfl
@[simp] theorem State.emit_txLen : (s.emit a).txLen = s.txLen := rfl
@[simp] theorem State.emit_sendbuf : (s.emit a).sendbuf = s.sendbuf := rfl
@[simp] theorem State.emit_input : (s.emit a).input = s.input := rfl
@[simp] theorem State.emit_output : (s.emit a).output = s.output ++ [a] := rfl
@[simp] theorem State.emit_draws : (s.emit a).draws = s.draws := rfl

end

/-! ### State.raiseFault -/

section
variable (s : State) (code : FaultCode)

@[simp] theorem State.raiseFault_eid : (s.raiseFault code).eid = s.eid := rfl
@[simp] theorem State.raiseFault_fault : (s.raiseFault code).fault = true := rfl
@[simp] theorem State.raiseFault_faultCode : (s.raiseFault code).faultCode = code := rfl
@[simp] theorem State.raiseFault_ctx : (s.raiseFault code).ctx = s.ctx := rfl
@[simp] theorem State.raiseFault_rxPos : (s.raiseFault code).rxPos = s.rxPos := rfl
@[simp] theorem State.raiseFault_rxCrc : (s.raiseFault code).rxCrc = s.rxCrc := rfl
@[simp] theorem State.raiseFault_st : (s.raiseFault code).st = s.st := rfl
@[simp] theorem State.raiseFault_busReq : (s.raiseFault code).busReq = s.busReq := rfl
@[simp] theorem State.raiseFault_replyKind : (s.raiseFault code).replyKind = s.replyKind := rfl
@[simp] theorem State.raiseFault_txPos : (s.raiseFault code).txPos = s.txPos := rfl
@[simp] theorem State.raiseFault_txLen : (s.raiseFault code).txLen = s.txLen := rfl
@[simp] theorem State.raiseFault_sendbuf : (s.raiseFault code).sendbuf = s.sendbuf := rfl
@[simp] theorem State.raiseFault_input : (s.raiseFault code).input = s.input := rfl
@[simp] theorem State.raiseFault_output : (s.raiseFault code).output = s.output := rfl
@[simp] theorem State.raiseFault_draws : (s.raiseFault code).draws = s.draws := rfl

end

/-! ### State.writeSendbuf -/

section
variable (s : State) (i b : Byte)

@[simp] theorem State.writeSendbuf_eid : (s.writeSendbuf i b).eid = s.eid := rfl
@[simp] theorem State.writeSendbuf_fault : (s.writeSendbuf i b).fault = s.fault := rfl
@[simp] theorem State.writeSendbuf_faultCode : (s.writeSendbuf i b).faultCode = s.faultCode := rfl
@[simp] theorem State.writeSendbuf_ctx : (s.writeSendbuf i b).ctx = s.ctx := rfl
@[simp] theorem State.writeSendbuf_rxPos : (s.writeSendbuf i b).rxPos = s.rxPos := rfl
@[simp] theorem State.writeSendbuf_rxCrc : (s.writeSendbuf i b).rxCrc = s.rxCrc := rfl
@[simp] theorem State.writeSendbuf_st : (s.writeSendbuf i b).st = s.st := rfl
@[simp] theorem State.writeSendbuf_busReq : (s.writeSendbuf i b).busReq = s.busReq := rfl
@[simp] theorem State.writeSendbuf_replyKind : (s.writeSendbuf i b).replyKind = s.replyKind := rfl
@[simp] theorem State.writeSendbuf_txPos : (s.writeSendbuf i b).txPos = s.txPos := rfl
@[simp] theorem State.writeSendbuf_txLen : (s.writeSendbuf i b).txLen = s.txLen := rfl
@[simp] theorem State.writeSendbuf_sendbuf : (s.writeSendbuf i b).sendbuf = s.sendbuf.write i.toNat b := rfl
@[simp] theorem State.writeSendbuf_input : (s.writeSendbuf i b).input = s.input := rfl
@[simp] theorem State.writeSendbuf_output : (s.writeSendbuf i b).output = s.output := rfl
@[simp] theorem State.writeSendbuf_draws : (s.writeSendbuf i b).draws = s.draws := rfl

end

/-! ### State.clearCtx -/

section
variable (s : State)

@[simp] theorem State.clearCtx_eid : s.clearCtx.eid = s.eid := rfl
@[simp] theorem State.clearCtx_fault : s.clearCtx.fault = s.fault := rfl
@[simp] theorem State.clearCtx_faultCode : s.clearCtx.faultCode = s.faultCode := rfl
@[simp] theorem State.clearCtx_ctx : s.clearCtx.ctx = Ctx.cleared := rfl
@[simp] theorem State.clearCtx_rxPos : s.clearCtx.rxPos = 0 := rfl
@[simp] theorem State.clearCtx_rxCrc : s.clearCtx.rxCrc = 0 := rfl
@[simp] theorem State.clearCtx_st : s.clearCtx.st = s.st := rfl
@[simp] theorem State.clearCtx_busReq : s.clearCtx.busReq = s.busReq := rfl
@[simp] theorem State.clearCtx_replyKind : s.clearCtx.replyKind = .none := rfl
@[simp] theorem State.clearCtx_txPos : s.clearCtx.txPos = 0 := rfl
@[simp] theorem State.clearCtx_txLen : s.clearCtx.txLen = 0 := rfl
@[simp] theorem State.clearCtx_sendbuf : s.clearCtx.sendbuf = s.sendbuf := rfl
@[simp] theorem State.clearCtx_input : s.clearCtx.input = s.input := rfl
@[simp] theorem State.clearCtx_output : s.clearCtx.output = s.output := rfl
@[simp] theorem State.clearCtx_draws : s.clearCtx.draws = s.draws := rfl

end

/-! ### State.endTransaction -/

section
variable (s : State)

@[simp] theorem State.endTransaction_eid : s.endTransaction.eid = s.eid := rfl
@[simp] theorem State.endTransaction_fault : s.endTransaction.fault = s.fault := rfl
@[simp] theorem State.endTransaction_faultCode : s.endTransaction.faultCode = s.faultCode := rfl
@[simp] theorem State.endTransaction_ctx : s.endTransaction.ctx = Ctx.cleared := rfl
@[simp] theorem State.endTransaction_rxPos : s.endTransaction.rxPos = 0 := rfl
@[simp] theorem State.endTransaction_rxCrc : s.endTransaction.rxCrc = 0 := rfl
@[simp] theorem State.endTransaction_st : s.endTransaction.st = .idle := rfl
@[simp] theorem State.endTransaction_busReq : s.endTransaction.busReq = s.busReq := rfl
@[simp] theorem State.endTransaction_replyKind : s.endTransaction.replyKind = .none := rfl
@[simp] theorem State.endTransaction_txPos : s.endTransaction.txPos = 0 := rfl
@[simp] theorem State.endTransaction_txLen : s.endTransaction.txLen = 0 := rfl
@[simp] theorem State.endTransaction_sendbuf : s.endTransaction.sendbuf = s.sendbuf := rfl
@[simp] theorem State.endTransaction_input : s.endTransaction.input = s.input := rfl
@[simp] theorem State.endTransaction_output : s.endTransaction.output = s.output := rfl
@[simp] theorem State.endTransaction_draws : s.endTransaction.draws = s.draws := rfl

end

/-! ### State.takeReset -/

section
variable (s : State)

@[simp] theorem State.takeReset_eid : s.takeReset.eid = Config.params.initEid := rfl
@[simp] theorem State.takeReset_fault : s.takeReset.fault = false := rfl
@[simp] theorem State.takeReset_faultCode : s.takeReset.faultCode = .none := rfl
@[simp] theorem State.takeReset_ctx : s.takeReset.ctx = Ctx.cleared := rfl
@[simp] theorem State.takeReset_rxPos : s.takeReset.rxPos = 0 := rfl
@[simp] theorem State.takeReset_rxCrc : s.takeReset.rxCrc = 0 := rfl
@[simp] theorem State.takeReset_st : s.takeReset.st = .idle := rfl
@[simp] theorem State.takeReset_busReq : s.takeReset.busReq = false := rfl
@[simp] theorem State.takeReset_replyKind : s.takeReset.replyKind = .none := rfl
@[simp] theorem State.takeReset_txPos : s.takeReset.txPos = 0 := rfl
@[simp] theorem State.takeReset_txLen : s.takeReset.txLen = 0 := rfl
@[simp] theorem State.takeReset_sendbuf : s.takeReset.sendbuf = [] := rfl
@[simp] theorem State.takeReset_input : s.takeReset.input = s.input := rfl
@[simp] theorem State.takeReset_output : s.takeReset.output = s.output := rfl
@[simp] theorem State.takeReset_draws : s.takeReset.draws = s.draws := rfl

end

/-! ### State.placeEvent -/

section
variable (s : State) (w : EventWord)

@[simp] theorem State.placeEvent_eid : (s.placeEvent w).eid = s.eid := rfl
@[simp] theorem State.placeEvent_fault : (s.placeEvent w).fault = s.fault := rfl
@[simp] theorem State.placeEvent_faultCode : (s.placeEvent w).faultCode = s.faultCode := rfl
@[simp] theorem State.placeEvent_ctx : (s.placeEvent w).ctx = s.ctx := rfl
@[simp] theorem State.placeEvent_rxPos : (s.placeEvent w).rxPos = s.rxPos := rfl
@[simp] theorem State.placeEvent_rxCrc : (s.placeEvent w).rxCrc = s.rxCrc := rfl
@[simp] theorem State.placeEvent_st : (s.placeEvent w).st = s.st := rfl
@[simp] theorem State.placeEvent_busReq : (s.placeEvent w).busReq = s.busReq := rfl
@[simp] theorem State.placeEvent_replyKind : (s.placeEvent w).replyKind = s.replyKind := rfl
@[simp] theorem State.placeEvent_txPos : (s.placeEvent w).txPos = s.txPos := rfl
@[simp] theorem State.placeEvent_txLen : (s.placeEvent w).txLen = s.txLen := rfl
@[simp] theorem State.placeEvent_sendbuf : (s.placeEvent w).sendbuf = s.sendbuf := rfl
@[simp] theorem State.placeEvent_input : (s.placeEvent w).input = .event w :: s.input := rfl
@[simp] theorem State.placeEvent_output : (s.placeEvent w).output = s.output := rfl
@[simp] theorem State.placeEvent_draws : (s.placeEvent w).draws = s.draws := rfl

end

/-! ### State.requestBus -/

section
variable (s : State)

theorem State.requestBus_eq : s.requestBus =
    { s with
      busReq := true
      output := if s.busReq = true then s.output else s.output ++ [.reqBus] } := by
  unfold State.requestBus
  split
  · next h => simp [← h]
  · rfl

@[simp] theorem State.requestBus_eid : s.requestBus.eid = s.eid := by rw [State.requestBus_eq]
@[simp] theorem State.requestBus_fault : s.requestBus.fault = s.fault := by rw [State.requestBus_eq]
@[simp] theorem State.requestBus_faultCode : s.requestBus.faultCode = s.faultCode := by rw [State.requestBus_eq]
@[simp] theorem State.requestBus_ctx : s.requestBus.ctx = s.ctx := by rw [State.requestBus_eq]
@[simp] theorem State.requestBus_rxPos : s.requestBus.rxPos = s.rxPos := by rw [State.requestBus_eq]
@[simp] theorem State.requestBus_rxCrc : s.requestBus.rxCrc = s.rxCrc := by rw [State.requestBus_eq]
@[simp] theorem State.requestBus_st : s.requestBus.st = s.st := by rw [State.requestBus_eq]
@[simp] theorem State.requestBus_busReq : s.requestBus.busReq = true := by rw [State.requestBus_eq]
@[simp] theorem State.requestBus_replyKind : s.requestBus.replyKind = s.replyKind := by rw [State.requestBus_eq]
@[simp] theorem State.requestBus_txPos : s.requestBus.txPos = s.txPos := by rw [State.requestBus_eq]
@[simp] theorem State.requestBus_txLen : s.requestBus.txLen = s.txLen := by rw [State.requestBus_eq]
@[simp] theorem State.requestBus_sendbuf : s.requestBus.sendbuf = s.sendbuf := by rw [State.requestBus_eq]
@[simp] theorem State.requestBus_input : s.requestBus.input = s.input := by rw [State.requestBus_eq]
@[simp] theorem State.requestBus_output :
    s.requestBus.output = if s.busReq = true then s.output else s.output ++ [.reqBus] := by rw [State.requestBus_eq]
@[simp] theorem State.requestBus_draws : s.requestBus.draws = s.draws := by rw [State.requestBus_eq]

end

/-! ### State.commitAtFinish -/

section
variable (s : State)

theorem State.commitAtFinish_eq : s.commitAtFinish =
    { s with
      eid :=
        if s.ctx.subCtx = .control ∧ s.ctx.ctlCmd = 0x01#8 ∧ s.ctx.arg1Seen = true then s.ctx.ctlArg1
        else s.eid } := by
  unfold State.commitAtFinish
  split <;> rfl

@[simp] theorem State.commitAtFinish_fault : s.commitAtFinish.fault = s.fault := by rw [State.commitAtFinish_eq]
@[simp] theorem State.commitAtFinish_faultCode : s.commitAtFinish.faultCode = s.faultCode := by rw [State.commitAtFinish_eq]
@[simp] theorem State.commitAtFinish_ctx : s.commitAtFinish.ctx = s.ctx := by rw [State.commitAtFinish_eq]
@[simp] theorem State.commitAtFinish_rxPos : s.commitAtFinish.rxPos = s.rxPos := by rw [State.commitAtFinish_eq]
@[simp] theorem State.commitAtFinish_rxCrc : s.commitAtFinish.rxCrc = s.rxCrc := by rw [State.commitAtFinish_eq]
@[simp] theorem State.commitAtFinish_st : s.commitAtFinish.st = s.st := by rw [State.commitAtFinish_eq]
@[simp] theorem State.commitAtFinish_busReq : s.commitAtFinish.busReq = s.busReq := by rw [State.commitAtFinish_eq]
@[simp] theorem State.commitAtFinish_replyKind : s.commitAtFinish.replyKind = s.replyKind := by rw [State.commitAtFinish_eq]
@[simp] theorem State.commitAtFinish_txPos : s.commitAtFinish.txPos = s.txPos := by rw [State.commitAtFinish_eq]
@[simp] theorem State.commitAtFinish_txLen : s.commitAtFinish.txLen = s.txLen := by rw [State.commitAtFinish_eq]
@[simp] theorem State.commitAtFinish_sendbuf : s.commitAtFinish.sendbuf = s.sendbuf := by rw [State.commitAtFinish_eq]
@[simp] theorem State.commitAtFinish_input : s.commitAtFinish.input = s.input := by rw [State.commitAtFinish_eq]
@[simp] theorem State.commitAtFinish_output : s.commitAtFinish.output = s.output := by rw [State.commitAtFinish_eq]
@[simp] theorem State.commitAtFinish_draws : s.commitAtFinish.draws = s.draws := by rw [State.commitAtFinish_eq]

end

end Sys2Proof.Machine
end

