-- ==== Sys2Proof/Laws/Ops.lean ====
section
/-! SUPPORT. What each shared operation can do, said once: if it answers a next state, which. -/

namespace Sys2Proof.Machine

open Sys2Proof

/-! ### The fault guard -/

theorem guarded_faulted {s : State} (h : s.fault = true) (r : Result) : guarded s r = .next s := by
  simp [guarded, h]

theorem guarded_sound {s : State} (h : s.fault = false) (r : Result) : guarded s r = r := by
  simp [guarded, h]

theorem guarded_next {s t : State} {r : Result} (h : guarded s r = .next t) :
    (s.fault = true ∧ t = s) ∨ (s.fault = false ∧ r = .next t) := by
  cases hf : s.fault with
  | true =>
    rw [guarded_faulted hf] at h
    injection h with h
    exact .inl ⟨rfl, h.symm⟩
  | false =>
    rw [guarded_sound hf] at h
    exact .inr ⟨rfl, h⟩

/-! ### Capturing a byte -/

/-- The commit of Set Endpoint ID in a capture: when it happens. -/
def CommitsNow (p : Params) (n : Nat) (s : State) : Prop :=
  p.eidCommit = .immediate ∧ n = 11 ∧ s.ctx.subCtx = .control ∧ s.ctx.ctlCmd = 0x01#8

/-- A capture writes the Frame Context registers and `EID`, and nothing else. -/
theorem capture_eq (p : Params) (n : Nat) (b : Byte) (s : State) :
    capture p n b s = { s with ctx := (capture p n b s).ctx, eid := (capture p n b s).eid } := by
  unfold capture captureControl controlBodyParser parseSetEid parseGetVersion parseGetVdm
  split
  · rfl
  · split
    · split
      · rfl
      · split
        · rfl
        · split
          · split
            · rfl
            · split <;> rfl
          · split
            · split <;> rfl
            · split
              · split <;> rfl
              · rfl
    · rfl
    · rfl

section
variable (p : Params) (n : Nat) (b : Byte) (s : State)
@[simp] theorem capture_fault : (capture p n b s).fault = s.fault := by rw [capture_eq]
@[simp] theorem capture_faultCode : (capture p n b s).faultCode = s.faultCode := by rw [capture_eq]
@[simp] theorem capture_rxPos : (capture p n b s).rxPos = s.rxPos := by rw [capture_eq]
@[simp] theorem capture_rxCrc : (capture p n b s).rxCrc = s.rxCrc := by rw [capture_eq]
@[simp] theorem capture_st : (capture p n b s).st = s.st := by rw [capture_eq]
@[simp] theorem capture_busReq : (capture p n b s).busReq = s.busReq := by rw [capture_eq]
@[simp] theorem capture_replyKind : (capture p n b s).replyKind = s.replyKind := by rw [capture_eq]
@[simp] theorem capture_txPos : (capture p n b s).txPos = s.txPos := by rw [capture_eq]
@[simp] theorem capture_txLen : (capture p n b s).txLen = s.txLen := by rw [capture_eq]
@[simp] theorem capture_sendbuf : (capture p n b s).sendbuf = s.sendbuf := by rw [capture_eq]
@[simp] theorem capture_input : (capture p n b s).input = s.input := by rw [capture_eq]
@[simp] theorem capture_output : (capture p n b s).output = s.output := by rw [capture_eq]
@[simp] theorem capture_draws : (capture p n b s).draws = s.draws := by rw [capture_eq]
end

/-- `EID` after a capture (42_control_commands.md R171). -/
theorem capture_eid (p : Params) (n : Nat) (b : Byte) (s : State) :
    (CommitsNow p n s ∧ (capture p n b s).eid = b) ∨
    (¬ CommitsNow p n s ∧ (capture p n b s).eid = s.eid) := by
  unfold CommitsNow capture captureControl controlBodyParser parseSetEid parseGetVersion parseGetVdm
  by_cases h8 : n < 8
  · exact .inr ⟨(by rintro ⟨_, h, _⟩; omega), (by simp [h8])⟩
  · cases hs : s.ctx.subCtx with
    | control =>
      by_cases h : n = 8
      · exact .inr ⟨(by rintro ⟨_, h', _⟩; omega), (by simp [h])⟩
      by_cases h9 : n = 9
      · exact .inr ⟨(by rintro ⟨_, h', _⟩; omega), (by simp [h9])⟩
      by_cases hc : s.ctx.ctlCmd = 0x01#8
      · by_cases h11 : n = 11
        · cases he : p.eidCommit with
          | immediate => exact .inl ⟨⟨rfl, h11, rfl, hc⟩, by simp [h11, hc]⟩
          | atFinish => exact .inr ⟨(by rintro ⟨h', _⟩; cases h'), (by simp [h11, hc])⟩
        · refine .inr ⟨(by rintro ⟨_, h', _⟩; exact h11 h'), ?_⟩
          by_cases h10 : n = 10 <;> simp [h8, h, h9, hc, h10, h11]
      · refine .inr ⟨(by rintro ⟨_, _, _, h'⟩; exact hc h'), ?_⟩
        simp only [h8, h, h9, hc, if_false]
        split
        · split <;> rfl
        · split
          · split <;> rfl
          · rfl
    | fmapi => exact .inr ⟨(by rintro ⟨_, _, h', _⟩; cases h'), (by simp [h8])⟩
    | none => exact .inr ⟨(by rintro ⟨_, _, h', _⟩; cases h'), (by simp [h8])⟩

/-! ### RX_BYTE, FINISH and the starts -/

/-- All that RX_BYTE can do (41_ingestion.md R130, R132). -/
theorem rxByte_next {p : Params} {b : Byte} {s t : State} (h : rxByte p b s = .next t) :
    (s.fault = true ∧ t = s) ∨
    (s.fault = false ∧ s.st = .rx ∧
      t = { capture p s.rxPos.toNat b { s with rxCrc := crc8Update s.rxCrc b } with
            rxPos := sat16 (s.rxPos.toNat + 1) }) ∨
    (s.fault = false ∧ s.st ≠ .rx ∧ t = s.raiseFault .rxOutside) := by
  rcases guarded_next h with h | ⟨hf, h⟩
  · exact .inl h
  · refine .inr ?_
    by_cases hst : s.st = .rx
    · rw [if_pos hst] at h
      injection h with h
      exact .inl ⟨hf, hst, by rw [← h]; simp⟩
    · rw [if_neg hst] at h
      injection h with h
      exact .inr ⟨hf, hst, h.symm⟩

/-- `EID` after FINISH of a request (42_control_commands.md R172). -/
def finishEid (p : Params) (s : State) : Byte :=
  if p.eidCommit = .atFinish ∧ s.ctx.subCtx = .control ∧ s.ctx.ctlCmd = 0x01#8 ∧ s.ctx.arg1Seen = true then
    s.ctx.ctlArg1
  else s.eid

/-- The commit and the bus request of FINISH, as one update. -/
theorem finish_update (p : Params) (s : State) :
    ({ (if p.eidCommit = EidCommit.atFinish then s.commitAtFinish else s) with
        st := .processRequest } : State).requestBus =
      { s with
        eid := finishEid p s
        st := .processRequest
        busReq := true
        output := if s.busReq = true then s.output else s.output ++ [.reqBus] } := by
  unfold finishEid State.commitAtFinish State.requestBus
  by_cases hp : p.eidCommit = EidCommit.atFinish
  · by_cases hc : s.ctx.subCtx = .control ∧ s.ctx.ctlCmd = 0x01#8 ∧ s.ctx.arg1Seen = true
    · simp only [hp, hc, if_true, and_self]
      cases hb : s.busReq <;> simp [State.emit]
    · simp only [hp, hc, if_true, if_false, and_false]
      cases hb : s.busReq <;> simp [State.emit]
  · simp only [hp, if_false, false_and]
    cases hb : s.busReq <;> simp [State.emit]

/-- All that FINISH can do (41_ingestion.md R130, R139). -/
theorem finish_next {p : Params} {s t : State} (h : finish p s = .next t) :
    (s.fault = true ∧ t = s) ∨
    (s.fault = false ∧ s.st = .rx ∧
      t = { s with
            eid := finishEid p s
            st := .processRequest
            busReq := true
            output := if s.busReq = true then s.output else s.output ++ [.reqBus] }) ∨
    (s.fault = false ∧ (s.st = .idle ∨ s.st = .rd) ∧ t = { s with st := .idle }) ∨
    (s.fault = false ∧ (s.st = .processRequest ∨ s.st = .ack) ∧ t = s.raiseFault .finishBusy) := by
  rcases guarded_next h with h | ⟨hf, h⟩
  · exact .inl h
  · cases hst : s.st <;> simp only [hst] at h <;> cases h
    case inr.rx.refl => exact .inr (.inl ⟨hf, rfl, finish_update p s⟩)
    all_goals simp [hf]

/-- All that START_WRITE can do (41_ingestion.md R130, R131). -/
theorem startWrite_next {s t : State} (h : execStartWrite s = .next t) :
    (s.fault = true ∧ t = s) ∨
    (s.fault = false ∧ (s.st = .idle ∨ s.st = .rx ∨ s.st = .rd) ∧ t = { s.clearCtx with st := .rx }) ∨
    (s.fault = false ∧ (s.st = .processRequest ∨ s.st = .ack) ∧ t = s.raiseFault .startWriteBusy) := by
  rcases guarded_next h with h | ⟨hf, h⟩
  · exact .inl h
  · cases hst : s.st <;> simp only [hst] at h <;> cases h
    all_goals simp [hf]

/-- All that START_READ can do (41_ingestion.md R130, R138). -/
theorem startRead_next {s t : State} (h : execStartRead s = .next t) :
    (s.fault = true ∧ t = s) ∨
    (s.fault = false ∧ (s.st = .idle ∨ s.st = .rx ∨ s.st = .rd) ∧ t = { s.clearCtx with st := .rd }) ∨
    (s.fault = false ∧ (s.st = .processRequest ∨ s.st = .ack) ∧ t = s.raiseFault .startReadBusy) := by
  rcases guarded_next h with h | ⟨hf, h⟩
  · exact .inl h
  · cases hst : s.st <;> simp only [hst] at h <;> cases h
    all_goals simp [hf]

/-- All that NACK can do (41_ingestion.md R130, R141). -/
theorem nack_next {s t : State} (h : execNack s = .next t) :
    (s.fault = true ∧ t = s) ∨
    (s.fault = false ∧ s.st = .idle ∧ t = s) ∨
    (s.fault = false ∧ (s.st = .rx ∨ s.st = .rd ∨ s.st = .processRequest) ∧ t = s.endTransaction) ∨
    (s.fault = false ∧ s.st = .ack ∧ t = ((s.emit .txEnd).emit .busRelease).endTransaction) := by
  rcases guarded_next h with h | ⟨hf, h⟩
  · exact .inl h
  · cases hst : s.st <;> simp only [hst] at h <;> cases h
    all_goals simp [hf]

/-- All that READ_REQ can do (41_ingestion.md R130, R140). -/
theorem readReq_next {s t : State} (h : execReadReq s = .next t) :
    (s.fault = true ∧ t = s) ∨
    (s.fault = false ∧ s.st = .rd ∧
      t = { s.emit (.readData (Config.readData s.draws)) with draws := s.draws + 1 }) ∨
    (s.fault = false ∧ s.st ≠ .rd ∧ t = s.raiseFault .readOutside) := by
  rcases guarded_next h with h | ⟨hf, h⟩
  · exact .inl h
  · refine .inr ?_
    by_cases hst : s.st = .rd
    · rw [if_pos hst] at h
      injection h with h
      exact .inl ⟨hf, hst, h.symm⟩
    · rw [if_neg hst] at h
      injection h with h
      exact .inr ⟨hf, hst, h.symm⟩

/-! ### BUS_GRANT and the request rows -/

/-- BUS_GRANT and each request row are one shared operation on the reply kind they serve. -/
theorem exec_grant {i : Instr} (hi : i.isGrant = true) (s : State) :
    exec i s = grant Config.params (servedKind i s) s := by
  cases i <;> first | rfl | exact absurd hi (by simp [Instr.isGrant, Instr.isEvent])

/-- All that a grant can do (41_ingestion.md R130, R142, 44_responder.md R233). -/
theorem grant_next {p : Params} {kind : ReplyKind} {s t : State} (h : grant p kind s = .next t) :
    (s.fault = true ∧ t = s) ∨
    (s.fault = false ∧ s.busReq = false ∧ t = s.raiseFault .grantUnrequested) ∨
    (s.fault = false ∧ s.busReq = true ∧ s.st ≠ .processRequest ∧
      t = { s with busReq := false }.emit .busRelease) ∨
    (s.fault = false ∧ s.busReq = true ∧ s.st = .processRequest ∧
      t = processRequest p kind { s with busReq := false }) := by
  rcases guarded_next h with h | ⟨hf, h⟩
  · exact .inl h
  · refine .inr ?_
    cases hb : s.busReq with
    | false =>
      simp only [hb, Bool.false_eq_true, if_false] at h
      injection h with h
      exact .inl ⟨hf, rfl, h.symm⟩
    | true =>
      refine .inr ?_
      simp only [hb, if_true] at h
      by_cases hst : s.st = .processRequest
      · rw [if_pos hst] at h
        injection h with h
        exact .inr ⟨hf, rfl, hst, h.symm⟩
      · rw [if_neg hst] at h
        injection h with h
        exact .inl ⟨hf, rfl, hst, h.symm⟩

/-- Processing a request with no reply (44_responder.md R233). -/
theorem processRequest_none (p : Params) (s : State) :
    processRequest p .none s = (({ s with replyKind := .none } : State).emit .busRelease).endTransaction :=
  rfl

/-- Processing a request with a reply, as one update (44_responder.md R233, R234). -/
theorem processRequest_reply (p : Params) {kind : ReplyKind} (hk : kind ≠ .none) (s : State) :
    processRequest p kind s =
      { s with
        replyKind := kind
        txLen := BitVec.ofNat 8 (replyImage p kind s.eid s.ctx).length
        output := s.output ++ [.txStart s.ctx.reqAddr7]
        sendbuf := s.sendbuf.write 0 (addressByte s.ctx)
        txPos := 1
        st := .ack } := by
  simp only [processRequest, if_neg hk]
  rfl

/-! ### TX_ACK -/

/-- All that TX_ACK can do (41_ingestion.md R130, R143, 44_responder.md R236–R238). -/
theorem txAck_next {p : Params} {s t : State} (h : txAck p s = .next t) :
    (s.fault = true ∧ t = s) ∨
    (s.fault = false ∧ s.st ≠ .ack ∧ t = s.raiseFault .ackOutside) ∨
    (s.fault = false ∧ s.st = .ack ∧ s.txPos < s.txLen ∧
      ∃ b, (s.image p)[s.txPos.toNat]? = some b ∧
        t = { (s.writeSendbuf s.txPos b).emit (.txByte b) with txPos := s.txPos + 1 }) ∨
    (s.fault = false ∧ s.st = .ack ∧ s.txPos = s.txLen ∧ t = pecSlot s) ∨
    (s.fault = false ∧ s.st = .ack ∧ ¬ s.txPos < s.txLen ∧ s.txPos ≠ s.txLen ∧
      s.txPos = s.txLen + 1 ∧ t = terminatorSlot s) := by
  rcases guarded_next h with h | ⟨hf, h⟩
  · exact .inl h
  · refine .inr ?_
    by_cases hst : s.st = .ack
    · rw [if_pos hst] at h
      refine .inr ?_
      unfold ackStep at h
      split at h
      · next hlt =>
        unfold dataSlot at h
        split at h
        · next b hb =>
          injection h with h
          exact .inl ⟨hf, hst, hlt, b, hb, h.symm⟩
        · cases h
      · next hlt =>
        split at h
        · next heq =>
          injection h with h
          exact .inr (.inl ⟨hf, hst, heq, h.symm⟩)
        · next hne =>
          split at h
          · next heq =>
            injection h with h
            exact .inr (.inr ⟨hf, hst, hlt, hne, heq, h.symm⟩)
          · cases h
    · rw [if_neg hst] at h
      injection h with h
      exact .inl ⟨hf, hst, h.symm⟩

/-! ### Runs -/

theorem execAll_append (is js : List Instr) :
    ∀ s t : State, execAll is s = .next t → execAll (is ++ js) s = execAll js t := by
  induction is with
  | nil =>
    intro s t h
    injection h with h
    rw [← h]
    rfl
  | cons i is ih =>
    intro s t h
    simp only [List.cons_append, execAll] at h ⊢
    split at h
    · next u hu => exact ih u t h
    · cases h
    · cases h

end Sys2Proof.Machine
end

