-- ==== Sys2Proof/Laws/PerInstr.lean ====
section
/-! SUPPORT. A family of facts about each instruction as syntax: its word matches its row of
spec/opcode_table.json. -/

namespace Sys2Proof.Laws.EncodeMatchesTable

open Sys2Proof

/-- The word of a well-formed instruction, under the mask of its row of spec/opcode_table.json, is the row's
match. -/
def Statement (i : Instr) : Prop :=
  i.wf = true → (encode i).number &&& i.tableRow.mask = i.tableRow.value

/-- A key with a given message type matches the row that masks everything else. -/
theorem type_row (mt : Byte) (low : BitVec 16) :
    (mt ++ low : Key).toNat &&& 0xFF0000 = (mt ++ 0#16 : Key).toNat := by
  have h := congrArg BitVec.toNat (key_and_type mt low)
  rwa [BitVec.toNat_and] at h

/-- An event word matches the row of its code. -/
theorem event_row (code : BitVec 3) (data : Byte) : (eventWord code data).toNat &&& 7 = code.toNat := by
  have h := congrArg BitVec.toNat (eventWord_code code data)
  rw [BitVec.extractLsb'_toNat, Nat.shiftRight_zero] at h
  rw [← h]
  exact Nat.and_two_pow_sub_one_eq_mod _ 3

theorem ctrlSetEid : Statement .ctrlSetEid := fun _ => rfl
theorem ctrlGetEid : Statement .ctrlGetEid := fun _ => rfl
theorem ctrlGetUuid : Statement .ctrlGetUuid := fun _ => rfl
theorem ctrlGetVersion : Statement .ctrlGetVersion := fun _ => rfl
theorem ctrlGetMsgTypes : Statement .ctrlGetMsgTypes := fun _ => rfl
theorem ctrlGetVdm : Statement .ctrlGetVdm := fun _ => rfl
theorem ctrlUnsupported (low : BitVec 16) : Statement (.ctrlUnsupported low) := fun _ => type_row _ low
theorem fmIdentifySwitch : Statement .fmIdentifySwitch := fun _ => rfl
theorem fmGetPortState : Statement .fmGetPortState := fun _ => rfl
theorem fmPhysPortControl : Statement .fmPhysPortControl := fun _ => rfl
theorem fmSendPpbConfig : Statement .fmSendPpbConfig := fun _ => rfl
theorem fmUnsupported (low : BitVec 16) : Statement (.fmUnsupported low) := fun _ => type_row _ low
theorem msgUnsupported (key : Key) : Statement (.msgUnsupported key) := fun _ => Nat.and_zero _
theorem startWrite : Statement .startWrite := fun _ => rfl
theorem rxByte (b : Byte) : Statement (.rxByte b) := fun _ => event_row 1#3 b
theorem finish : Statement .finish := fun _ => rfl
theorem nack : Statement .nack := fun _ => rfl
theorem startRead : Statement .startRead := fun _ => rfl
theorem readReq : Statement .readReq := fun _ => rfl
theorem busGrant : Statement .busGrant := fun _ => rfl
theorem txAck : Statement .txAck := fun _ => rfl

end Sys2Proof.Laws.EncodeMatchesTable
end

