-- ==== Sys2Proof/Tests/Slice0.lean ====
section
/-! SUPPORT. Tests, and for each statement with hypotheses a witness that meets them. Expected values come
from the encoding tables of 30_encoding.md, from 95_test_vectors.md, or by hand from the rule named. -/

namespace Sys2Proof.Machine.Tests

open Sys2Proof Sys2Proof.Machine

/-! ### Ill-formed terms are refused -/

theorem test_wf_refuses_supported_control : (Instr.ctrlUnsupported 0x0001).wf = false := by decide
theorem test_wf_refuses_last_supported_control : (Instr.ctrlUnsupported 0x0006).wf = false := by decide
theorem test_wf_refuses_supported_fm : (Instr.fmUnsupported 0x5101).wf = false := by decide
theorem test_wf_refuses_control_type : (Instr.msgUnsupported 0x000009).wf = false := by decide
theorem test_wf_refuses_fm_type : (Instr.msgUnsupported 0x075200).wf = false := by decide

/-! ### Words written out from 30_encoding.md R81 and R93

The key of a request row, bits 23..16 the message type, 15..8 the command set, 7..0 the command; the code of
an event in bits 2..0 of its first byte. -/

theorem test_decode_setEid : decodeTableWord 24 0b000000000000000000000001 = some .ctrlSetEid := by decide
theorem test_decode_getEid : decodeTableWord 24 0b000000000000000000000010 = some .ctrlGetEid := by decide
theorem test_decode_getUuid : decodeTableWord 24 0b000000000000000000000011 = some .ctrlGetUuid := by decide
theorem test_decode_getVersion : decodeTableWord 24 0b000000000000000000000100 = some .ctrlGetVersion := by
  decide
theorem test_decode_getMsgTypes : decodeTableWord 24 0b000000000000000000000101 = some .ctrlGetMsgTypes := by
  decide
theorem test_decode_getVdm : decodeTableWord 24 0b000000000000000000000110 = some .ctrlGetVdm := by decide
theorem test_decode_ctrlUnsupported :
    decodeTableWord 24 0b000000000000000000000111 = some (.ctrlUnsupported 0x0007) := by decide
theorem test_decode_identifySwitch :
    decodeTableWord 24 0b000001110101000100000000 = some .fmIdentifySwitch := by decide
theorem test_decode_getPortState :
    decodeTableWord 24 0b000001110101000100000001 = some .fmGetPortState := by decide
theorem test_decode_physPortControl :
    decodeTableWord 24 0b000001110101000100000010 = some .fmPhysPortControl := by decide
theorem test_decode_sendPpbConfig :
    decodeTableWord 24 0b000001110101000100000011 = some .fmSendPpbConfig := by decide
theorem test_decode_fmUnsupported :
    decodeTableWord 24 0b000001110101001000000000 = some (.fmUnsupported 0x5200) := by decide
theorem test_decode_msgUnsupported :
    decodeTableWord 24 0b100000000000000000000000 = some (.msgUnsupported 0x800000) := by decide
theorem test_decode_startWrite : decodeTableWord 3 0b000 = some .startWrite := by decide
theorem test_decode_rxByte : decodeTableWord 16 0b1010010100000001 = some (.rxByte 0xA5) := by decide
theorem test_decode_finish : decodeTableWord 3 0b010 = some .finish := by decide
theorem test_decode_nack : decodeTableWord 3 0b011 = some .nack := by decide
theorem test_decode_startRead : decodeTableWord 3 0b100 = some .startRead := by decide
theorem test_decode_readReq : decodeTableWord 3 0b101 = some .readReq := by decide
theorem test_decode_busGrant : decodeTableWord 3 0b110 = some .busGrant := by decide
theorem test_decode_txAck : decodeTableWord 3 0b111 = some .txAck := by decide
theorem test_decode_refuses_length : decodeBytes [0x02, 0x00, 0x00, 0x00] = .error (.noSuchLength 4) := by
  decide

/-! ### Small states -/

/-- Reset, but for the state register. -/
def bare (st : St) : State := { State.reset with st := st }

/-- The Frame Context of the control requests of 95_test_vectors.md, their command given. -/
def controlCtx (cmd : Byte) : Ctx :=
  { Ctx.cleared with
    preamble := 0x0F, byteCount := 0x08, srcAddr := 0x10, hdrVer := 0x01, srcEid := 0x08, tagByte := 0xC8
    ctlFlags := 0x85, ctlCmd := cmd }

/-- The Frame Context of the FM-API requests of 95_test_vectors.md, command and port list given. -/
def fmCtx (cmd n : Byte) (ports : Vector Byte 10) : Ctx :=
  { Ctx.cleared with
    preamble := 0x0F, srcAddr := 0x10, hdrVer := 0x01, srcEid := 0x08, tagByte := 0xC8, msgType := 0x07
    fmTag := 0x2A, fmCmd := cmd, fmSet := 0x51, fmNports := n, ports := ports }

/-- Receiving, at a position, with a Frame Context. -/
def receiving (pos : BitVec 16) (c : Ctx) : State := { bare .rx with rxPos := pos, ctx := c }

/-- A request pending. -/
def pending (c : Ctx) : State := { bare .processRequest with busReq := true, ctx := c, output := [.reqBus] }

/-- Sending the reply to Get Endpoint ID, 15 bytes long, at a position. -/
def sendingAt (pos : Byte) : State :=
  { bare .ack with
    ctx := controlCtx 0x02, rxPos := 10, replyKind := .getEid, txLen := 15, txPos := pos
    sendbuf := [(0, 0x10)] }

/-! ### One step of each instruction -/

/-- V-ING-1. -/
theorem test_startWrite : exec .startWrite State.reset = .next (bare .rx) := rfl

/-- V-ING-2: the byte at position 9, and RX_CRC from 0x35 to 0x85. -/
theorem test_rxByte_command :
    ∃ t, exec (.rxByte 0x02) { receiving 9 (controlCtx 0x00) with rxCrc := 0x35 } = .next t ∧
      t.ctx.ctlCmd = 0x02 ∧ t.rxPos = 10 ∧ t.rxCrc = 0x85 := ⟨_, rfl, by decide⟩

/-- 43_fmapi_commands.md R210: N = 12 is stored as 10. -/
theorem test_rxByte_clamps :
    ∃ t, exec (.rxByte 12) (receiving 20 (fmCtx 0x01 0 (Vector.replicate 10 0))) = .next t ∧
      t.ctx.fmNports = 10 := ⟨_, rfl, by decide⟩

/-- 41_ingestion.md R139, its second corner case: no second REQ_BUS while one is outstanding. -/
theorem test_finish_outstanding :
    ∃ t, exec .finish { bare .rx with busReq := true } = .next t ∧ t.output = [] ∧
      t.st = .processRequest := by
  refine ⟨_, rfl, ?_, ?_⟩ <;> cases h : Config.params.eidCommit <;> rfl

/-- 41_ingestion.md R141, its example: in ACK with TX_POS = 4. -/
theorem test_nack_in_ack :
    ∃ t, exec .nack (sendingAt 4) = .next t ∧ t.output = [.txEnd, .busRelease] ∧ t.st = .idle :=
  ⟨_, rfl, by decide⟩

theorem test_startRead : exec .startRead State.reset = .next (bare .rd) := rfl

theorem test_readReq_faults_outside :
    exec .readReq State.reset = .next { State.reset with fault := true, faultCode := .readOutside } := rfl

/-- 41_ingestion.md R142: the late grant of a cancelled request. -/
theorem test_busGrant_late :
    ∃ t, exec .busGrant { bare .rx with busReq := true } = .next t ∧ t.output = [.busRelease] ∧
      t.st = .rx ∧ t.busReq = false := ⟨_, rfl, by decide⟩

/-- 44_responder.md R236, its example: the first TX_ACK sends 0x0F. -/
theorem test_txAck_first :
    ∃ t, exec .txAck (sendingAt 1) = .next t ∧ t.output = [.txByte 0x0F] ∧ t.txPos = 2 ∧
      t.sendbuf = [(0, 0x10), (1, 0x0F)] := ⟨_, rfl, by decide⟩

/-- 44_responder.md R238: the terminator slot. -/
theorem test_txAck_terminator :
    ∃ t, exec .txAck (sendingAt 16) = .next t ∧ t.output = [.txEnd, .busRelease] ∧ t.st = .idle ∧
      t.ctx = Ctx.cleared := ⟨_, rfl, by decide⟩

/-- 44_responder.md R234, its example: `TX_START(0x08)`, `TX_POS = 1`, `SENDBUF[0] = 0x10`. -/
theorem test_getEid_starts_the_reply :
    ∃ t, exec .ctrlGetEid (pending (controlCtx 0x02)) = .next t ∧ t.st = .ack ∧
      t.output = [.reqBus, .txStart 0x08] ∧ t.txPos = 1 ∧ t.sendbuf = [(0, 0x10)] ∧
      t.replyKind = .getEid := ⟨_, rfl, by decide⟩

/-- 43_fmapi_commands.md R213, its example: REQ_BUS, then BUS_RELEASE. -/
theorem test_physPortControl_releases :
    ∃ t, exec .fmPhysPortControl (pending (fmCtx 0x02 0 (Vector.replicate 10 0))) = .next t ∧
      t.output = [.reqBus, .busRelease] ∧ t.complete = true := ⟨_, rfl, by decide⟩

/-! ### The step takes what `withFetchWord` places -/

theorem test_step_runs_placed_event :
    step (State.reset.withFetchWord 3 0) = .next (bare .rx) := rfl

/-- A placed request key runs the request row, not the event BUS_GRANT. -/
theorem test_step_runs_placed_key :
    (State.reset.withFetchWord 24 0x000005).fetch =
      .run .ctrlGetMsgTypes
        { bare .processRequest with busReq := true, ctx := { Ctx.cleared with ctlCmd := 0x05 } } := by
  rfl

/-! ### Reply images of 95_test_vectors.md, section 4 and 5 -/

/-- V-CTL-1. -/
theorem test_image_setEid : replyImage Params.vectors .setEid 0x0A (controlCtx 0x01) =
    [0x10, 0x0F, 0x0C, 0x21, 0x01, 0x08, 0x00, 0xC0, 0x00, 0x05, 0x01, 0x00, 0x00, 0x0A, 0x00] := by decide

/-- V-CTL-10: tag 5, instance ID 0x1F and the datagram bit. -/
theorem test_image_getEid_flags :
    replyImage Params.vectors .getEid 0 { controlCtx 0x02 with tagByte := 0xCD, ctlFlags := 0xDF } =
      [0x10, 0x0F, 0x0C, 0x21, 0x01, 0x08, 0x00, 0xC5, 0x00, 0x1F, 0x02, 0x00, 0x00, 0x00, 0x00] := by decide

/-- V-CTL-15: the addresses and EIDs swapped, the odd address bit dropped. -/
theorem test_image_getEid_addresses :
    replyImage Params.vectors .getEid 0
        { controlCtx 0x02 with srcAddr := 0x21, dstEid := 0x42, srcEid := 0x1D } =
      [0x20, 0x0F, 0x0C, 0x21, 0x01, 0x1D, 0x42, 0xC0, 0x00, 0x05, 0x02, 0x00, 0x00, 0x00, 0x00] := by decide

/-- V-CTL-4. -/
theorem test_image_getUuid : replyImage Params.vectors .getUuid 0 (controlCtx 0x03) =
    [0x10, 0x0F, 0x19, 0x21, 0x01, 0x08, 0x00, 0xC0, 0x00, 0x05, 0x03, 0x00, 0x00, 0x01, 0x02, 0x03, 0x04,
     0x05, 0x06, 0x07, 0x08, 0x09, 0x0A, 0x0B, 0x0C, 0x0D, 0x0E, 0x0F] := by decide

/-- V-CTL-5. -/
theorem test_image_getVersion : replyImage Params.vectors .getVersion 0 (controlCtx 0x04) =
    [0x10, 0x0F, 0x0E, 0x21, 0x01, 0x08, 0x00, 0xC0, 0x00, 0x05, 0x04, 0x00, 0x01, 0x03, 0x01, 0x00, 0x00] := by
  decide

/-- V-CTL-7. -/
theorem test_image_getMsgTypes : replyImage Params.vectors .getMsgTypes 0 (controlCtx 0x05) =
    [0x10, 0x0F, 0x0C, 0x21, 0x01, 0x08, 0x00, 0xC0, 0x00, 0x05, 0x05, 0x00, 0x02, 0x00, 0x07] := by decide

/-- V-CTL-8. -/
theorem test_image_getVdm : replyImage Params.vectors .getVdm 0 (controlCtx 0x06) =
    [0x10, 0x0F, 0x0C, 0x21, 0x01, 0x08, 0x00, 0xC0, 0x00, 0x05, 0x06, 0x00, 0x1E, 0x98, 0xFF] := by decide

/-- V-FM-1: its sub-header and the start of its payload, the VCS mask, and the two counts. -/
theorem test_image_identifySwitch :
    let img := replyImage Params.vectors .identifySwitch 0 (fmCtx 0x00 0 (Vector.replicate 10 0))
    (img.drop 9).take 20 =
      [0x01, 0x2A, 0x00, 0x00, 0x51, 0x48, 0x00, 0x00, 0x00, 0x00, 0x00, 0x00,
       0x00, 0x00, 0x0A, 0x01, 0xFF, 0x03, 0x00, 0x00] ∧
    (img.drop 56).take 3 = [0x00, 0x01, 0x00] ∧ img.drop 88 = [0x00, 0x08, 0x00, 0x08, 0x00] :=
  ⟨by decide, by decide, by decide⟩

/-- V-FM-2: ports 3, 0 and 9. -/
theorem test_image_getPortState :
    let img := replyImage Params.vectors .getPortState 0
      (fmCtx 0x01 3 (((Vector.replicate 10 0).set 0 3).set 2 9))
    (img.drop 14).take 11 = [0x34, 0x00, 0x00, 0x00, 0x00, 0x00, 0x00, 0x03, 0x00, 0x00, 0x00] ∧
    (img.drop 25).take 16 =
      [0x03, 0x03, 0x02, 0x00, 0x04, 0x02, 0x10, 0x10, 0x1C, 0x05, 0x05, 0x07, 0x00, 0x00, 0x00, 0x03] ∧
    (img.drop 41).take 16 =
      [0x00, 0x04, 0x00, 0x00, 0x00, 0x02, 0x10, 0x10, 0x1C, 0x05, 0x05, 0x07, 0x00, 0x00, 0x00, 0x00] ∧
    img.drop 57 =
      [0x09, 0x03, 0x02, 0x00, 0x04, 0x02, 0x10, 0x10, 0x1C, 0x05, 0x05, 0x07, 0x00, 0x00, 0x00, 0x03] :=
  ⟨by decide, by decide, by decide, by decide⟩

/-- V-CRC-5, the check value of CRC-8/SMBUS. -/
theorem test_crc_check_value :
    crc8 [0x31, 0x32, 0x33, 0x34, 0x35, 0x36, 0x37, 0x38, 0x39] = 0xF4 := by decide +kernel

/-- S1: the PEC of the Get Endpoint ID reply. -/
theorem test_crc_getEid_reply :
    crc8 [0x10, 0x0F, 0x0C, 0x21, 0x01, 0x08, 0x00, 0xC0, 0x00, 0x05, 0x02, 0x00, 0x00, 0x00, 0x00] = 0xBB := by
  decide +kernel

/-! ### Witnesses: for each statement with hypotheses, states and operands that meet them

One clause for each clause of the statement, at the ends of its ranges. -/

/-- A pending Get Endpoint ID request. -/
def pendingGetEid : State := pending (controlCtx 0x02)

/-- A pending request for ten ports. -/
def tenPorts : Ctx := fmCtx 0x01 10 (Vector.replicate 10 0xFF)

theorem wit_DecodeEncodeRoundTrip :
    (Instr.ctrlUnsupported 0x0000).wf = true ∧ (Instr.ctrlUnsupported 0x0007).wf = true ∧
    (Instr.ctrlUnsupported 0xFFFF).wf = true ∧ (Instr.fmUnsupported 0x50FF).wf = true ∧
    (Instr.fmUnsupported 0x5104).wf = true ∧ (Instr.msgUnsupported 0x010000).wf = true ∧
    (Instr.msgUnsupported 0xFFFFFF).wf = true ∧ (Instr.rxByte 0xFF).wf = true := by decide

theorem wit_KeySelectsTheRow :
    (controlCtx 0x06).msgType = 0x00#8 ∧ (fmCtx 0x03 0 (Vector.replicate 10 0)).msgType = 0x07#8 ∧
    ({ Ctx.cleared with msgType := 0x80 } : Ctx).msgType ≠ 0x00#8 ∧
    ({ Ctx.cleared with msgType := 0x80 } : Ctx).msgType ≠ 0x07#8 := by decide

theorem wit_StepRunsTheDecodedInstruction :
    ({ pendingGetEid with input := [.event 0x0006] } : State).input = .event 0x0006 :: [] ∧
    decode (.event 0x0006) = .busGrant ∧ Instr.busGrant.wf = true ∧
    ({ pendingGetEid with input := [.event 0x0006] } : State).servesRequest = true := by decide

theorem wit_ParkedBlockHoldsItsState : State.reset.input = [] := rfl

theorem wit_ResetStepRestoresEveryRegister :
    ({ sendingAt 4 with fault := true, input := [.reset] } : State).input = .reset :: [] := rfl

theorem wit_FaultedBlockIgnoresEveryEvent : ({ sendingAt 4 with fault := true } : State).fault = true := rfl

theorem wit_FaultEntryIsPrecise :
    hostFault (.rxByte 0) State.reset = some .rxOutside ∧ State.reset.fault = false ∧
    hostFault .startWrite (sendingAt 1) = some .startWriteBusy ∧ (sendingAt 1).fault = false ∧
    hostFault .startRead pendingGetEid = some .startReadBusy ∧ pendingGetEid.fault = false ∧
    hostFault .finish pendingGetEid = some .finishBusy ∧
    hostFault .readReq (bare .rx) = some .readOutside ∧ (bare .rx).fault = false ∧
    hostFault .busGrant State.reset = some .grantUnrequested ∧
    hostFault .ctrlGetEid State.reset = some .grantUnrequested ∧
    hostFault .txAck (bare .rd) = some .ackOutside ∧ (bare .rd).fault = false ∧
    hostFault .nack (sendingAt 1) = none ∧ (∃ t, exec .nack (sendingAt 1) = .next t) := by
  refine ⟨rfl, rfl, rfl, rfl, rfl, rfl, rfl, rfl, rfl, rfl, rfl, rfl, rfl, rfl, _, rfl⟩

theorem wit_UnreachedStatesStopByName :
    (bare .startSend).fault = false ∧ (bare .startSend).st = .startSend ∧
    (sendingAt 17).fault = false ∧ (sendingAt 17).st = .ack ∧
    (sendingAt 17).txLen.toNat + 1 < (sendingAt 17).txPos.toNat ∧
    (let s := { sendingAt 3 with replyKind := .none }
     s.fault = false ∧ s.st = .ack ∧ s.txPos.toNat < s.txLen.toNat ∧
       (replyImage Config.params s.replyKind s.eid s.ctx).length ≤ s.txPos.toNat) := by
  refine ⟨rfl, rfl, rfl, rfl, by decide, rfl, rfl, by decide, by decide⟩

/-- START_WRITE, START_READ, READ_REQ, FINISH and NACK: every state their clauses name. -/
theorem wit_starts_and_ends :
    ∀ st, (bare st).fault = false ∧ (bare st).st = st := fun _ => ⟨rfl, rfl⟩

theorem wit_HeaderCapture :
    ∀ pos ∈ [0#16, 1, 2, 3, 4, 5, 6, 7],
      (receiving pos Ctx.cleared).fault = false ∧ (receiving pos Ctx.cleared).st = .rx ∧
      (receiving pos Ctx.cleared).rxPos = pos := fun _ _ => ⟨rfl, rfl, rfl⟩

theorem wit_ControlCapture :
    (∀ pos ∈ [8#16, 9, 10, 11, 12, 0xFFFF],
      let s := receiving pos (controlCtx 0x03)
      s.fault = false ∧ s.st = .rx ∧ s.ctx.msgType = 0x00#8 ∧ s.rxPos = pos ∧ s.ctx.ctlCmd = 0x03#8) ∧
    (0x03#8 ≠ 0x01#8 ∧ 0x03#8 ≠ 0x04#8 ∧ 0x03#8 ≠ 0x06#8) ∧
    10 ≤ (10#16).toNat ∧ 12 ≤ (12#16).toNat ∧ 12 ≤ (0xFFFF#16).toNat :=
  ⟨fun _ _ => ⟨rfl, rfl, rfl, rfl, rfl⟩, by decide, by decide, by decide, by decide⟩

theorem wit_SetEidParseCommits :
    (∀ pos ∈ [10#16, 11, 12, 0xFFFF],
      let s := receiving pos (controlCtx 0x01)
      s.fault = false ∧ s.st = .rx ∧ s.ctx.msgType = 0x00#8 ∧ s.ctx.ctlCmd = 0x01#8 ∧ s.rxPos = pos) ∧
    12 ≤ (12#16).toNat ∧ 12 ≤ (0xFFFF#16).toNat :=
  ⟨fun _ _ => ⟨rfl, rfl, rfl, rfl, rfl⟩, by decide, by decide⟩

theorem wit_OneByteBodiesAreStored :
    (∀ pos ∈ [10#16, 11, 0xFFFF],
      let s := receiving pos (controlCtx 0x06)
      s.fault = false ∧ s.st = .rx ∧ s.ctx.msgType = 0x00#8 ∧
      (s.ctx.ctlCmd = 0x04#8 ∨ s.ctx.ctlCmd = 0x06#8) ∧ s.rxPos = pos) ∧
    11 ≤ (11#16).toNat ∧ 11 ≤ (0xFFFF#16).toNat :=
  ⟨fun _ _ => ⟨rfl, rfl, rfl, .inr rfl, rfl⟩, by decide, by decide⟩

theorem wit_FmApiCapture :
    (∀ pos ∈ [8#16, 9, 10, 11, 12, 13, 19, 20, 0xFFFF],
      let s := receiving pos (fmCtx 0x00 0 (Vector.replicate 10 0))
      s.fault = false ∧ s.st = .rx ∧ s.ctx.msgType = 0x07#8 ∧ s.rxPos = pos ∧ s.ctx.fmCmd = 0x00#8) ∧
    0x00#8 ≠ 0x01#8 ∧ 13 ≤ (13#16).toNat ∧ (19#16).toNat ≤ 19 ∧ 20 ≤ (20#16).toNat ∧
    20 ≤ (0xFFFF#16).toNat :=
  ⟨fun _ _ => ⟨rfl, rfl, rfl, rfl, rfl⟩, by decide, by decide, by decide, by decide, by decide⟩

theorem wit_PortListCapture :
    (∀ pos ∈ [20#16, 21, 30, 31, 0xFFFF],
      let s := receiving pos tenPorts
      s.fault = false ∧ s.st = .rx ∧ s.ctx.msgType = 0x07#8 ∧ s.ctx.fmSet = 0x51#8 ∧
      s.ctx.fmCmd = 0x01#8 ∧ s.ctx.fmNports.toNat = 10 ∧ s.rxPos = pos) ∧
    ((21#16).toNat = 21 + 0 ∧ 0 < 10) ∧ ((30#16).toNat = 21 + 9 ∧ 9 < 10) ∧ 21 + 10 ≤ (31#16).toNat ∧
    21 + 10 ≤ (0xFFFF#16).toNat :=
  ⟨fun _ _ => ⟨rfl, rfl, rfl, rfl, rfl, rfl, rfl⟩, by decide, by decide, by decide, by decide⟩

theorem wit_UndecodedTypeCapturesNothing :
    (∀ pos ∈ [8#16, 0xFFFF],
      let s := receiving pos { Ctx.cleared with msgType := 0x87 }
      s.fault = false ∧ s.st = .rx ∧ s.ctx.msgType = 0x87#8 ∧ s.rxPos = pos) ∧
    0x87#8 ≠ 0x00#8 ∧ 0x87#8 ≠ 0x07#8 ∧ 8 ≤ (8#16).toNat ∧ 8 ≤ (0xFFFF#16).toNat :=
  ⟨fun _ _ => ⟨rfl, rfl, rfl, rfl⟩, by decide, by decide, by decide, by decide⟩

theorem wit_ReceivePositionSaturates :
    ∀ pos ∈ [0#16, 0xFFFE, 0xFFFF],
      (receiving pos Ctx.cleared).fault = false ∧ (receiving pos Ctx.cleared).st = .rx ∧
      (receiving pos Ctx.cleared).rxPos = pos := fun _ _ => ⟨rfl, rfl, rfl⟩

/-- V-CTL-1. -/
def setEidRequest : List Byte :=
  [0x0F, 0x0A, 0x10, 0x01, 0x00, 0x08, 0xC8, 0x00, 0x85, 0x01, 0x00, 0x0A]

/-- V-CTL-2. -/
def getEidRequest : List Byte := [0x0F, 0x08, 0x10, 0x01, 0x00, 0x08, 0xC8, 0x00, 0x85, 0x02]

/-- V-FM-2. -/
def portStateRequest : List Byte :=
  [0x0F, 0x16, 0x10, 0x01, 0x00, 0x08, 0xC8, 0x07, 0x00, 0x2A, 0x00, 0x01, 0x51, 0x04, 0x00, 0x00, 0x00,
   0x00, 0x00, 0x00, 0x03, 0x03, 0x00, 0x09]

/-- V-CTL-5. -/
def getVersionRequest : List Byte := [0x0F, 0x09, 0x10, 0x01, 0x00, 0x08, 0xC8, 0x00, 0x85, 0x04, 0xFF]

/-- V-CTL-8. -/
def getVdmRequest : List Byte := [0x0F, 0x09, 0x10, 0x01, 0x00, 0x08, 0xC8, 0x00, 0x85, 0x06, 0x00]

/-- V-CTL-14. -/
def otherTypeRequest : List Byte := [0x0F, 0x08, 0x10, 0x01, 0x00, 0x08, 0xC8, 0x80, 0x85, 0x02]

/-- A request of each kind that RequestIsReconstructed tells apart; the empty one is V-CTL-12. -/
theorem wit_RequestIsReconstructed :
    (getVersionRequest.getD 7 0 = 0x00#8 ∧ getVersionRequest.getD 9 0 = 0x04#8) ∧
    (getVdmRequest.getD 7 0 = 0x00#8 ∧ getVdmRequest.getD 9 0 = 0x06#8) ∧
    (getEidRequest.getD 7 0 = 0x00#8 ∧ getEidRequest.getD 9 0 = 0x02#8) ∧
    (otherTypeRequest.getD 7 0 ≠ 0x00#8 ∧ otherTypeRequest.getD 7 0 ≠ 0x07#8) ∧
    ([] : List Byte).getD 7 0 = 0x00#8 ∧ (portStateRequest.getD 20 0).toNat = 3 := by decide

/-- RequestIsReconstructed, SetEidTakesEffectByFinish, StaleStateDoesNotReachTheRequest and
IdenticalRequestsGetIdenticalReplies. -/
theorem wit_requests :
    (bare .rd).fault = false ∧ (bare .rd).st = .rd ∧ State.reset.fault = false ∧ State.reset.st = .idle ∧
    (bare .rd).eid = State.reset.eid ∧ (bare .rd).busReq = State.reset.busReq ∧
    (bare .rd).sendbuf.wf = true ∧ State.reset.sendbuf.wf = true ∧
    setEidRequest.getD 7 0 = 0x00#8 ∧ setEidRequest.getD 9 0 = 0x01#8 ∧ 12 ≤ setEidRequest.length ∧
    portStateRequest.getD 7 0 = 0x07#8 ∧ portStateRequest.getD 12 0 = 0x51#8 ∧
    portStateRequest.getD 11 0 = 0x01#8 := by
  refine ⟨rfl, rfl, rfl, rfl, rfl, rfl, rfl, rfl, ?_⟩
  decide

/-- ReplyRowsStartTheReply, NoReplyRowsReleaseTheBus and BusGrantServesOrReleases. -/
theorem wit_pending :
    pendingGetEid.fault = false ∧ pendingGetEid.busReq = true ∧ pendingGetEid.st = .processRequest ∧
    rowReplyKind (decodeKey pendingGetEid.ctx.key) ≠ .none ∧
    rowReplyKind (decodeKey (pending (controlCtx 0x07)).ctx.key) = .none ∧
    State.reset.fault = false ∧ State.reset.busReq = false ∧
    (let s := { bare .rx with busReq := true }
     s.fault = false ∧ s.busReq = true ∧ s.st ≠ .processRequest) := by
  decide

theorem wit_DataSlotSendsTheImageByte :
    (∃ b, (sendingAt 1).fault = false ∧ (sendingAt 1).st = .ack ∧
      (sendingAt 1).txPos.toNat < (sendingAt 1).txLen.toNat ∧
      (replyImage Config.params (sendingAt 1).replyKind (sendingAt 1).eid (sendingAt 1).ctx)[1]? = some b) ∧
    (∃ b, (sendingAt 14).fault = false ∧ (sendingAt 14).st = .ack ∧
      (sendingAt 14).txPos.toNat < (sendingAt 14).txLen.toNat ∧
      (replyImage Config.params (sendingAt 14).replyKind (sendingAt 14).eid (sendingAt 14).ctx)[14]? =
        some b) :=
  ⟨⟨_, rfl, rfl, by decide, rfl⟩, ⟨_, rfl, rfl, by decide, rfl⟩⟩

theorem wit_PecSlotSendsTheChecksum :
    (sendingAt 15).fault = false ∧ (sendingAt 15).st = .ack ∧ (sendingAt 15).txPos = (sendingAt 15).txLen :=
  ⟨rfl, rfl, rfl⟩

theorem wit_TerminatorSlotReleasesTheBus :
    (sendingAt 16).fault = false ∧ (sendingAt 16).st = .ack ∧
    (sendingAt 16).txPos.toNat = (sendingAt 16).txLen.toNat + 1 := by decide

theorem wit_WholeReplyIsSent :
    let s := pending tenPorts
    s.fault = false ∧ s.busReq = true ∧ s.st = .processRequest ∧ s.ctx.fmNports.toNat ≤ portCap ∧
    s.sendbuf.wf = true ∧ rowReplyKind (decodeKey s.ctx.key) ≠ .none := by decide

theorem wit_GetEidReturnsTheAssignedEid :
    State.reset.fault = false ∧ State.reset.st = .idle ∧ State.reset.sendbuf.wf = true ∧
    (let s := { bare .rx with busReq := true }
     s.fault = false ∧ s.st = .rx ∧ s.sendbuf.wf = true) ∧
    setEidRequest.getD 7 0 = 0x00#8 ∧ setEidRequest.getD 9 0 = 0x01#8 ∧ 12 ≤ setEidRequest.length ∧
    getEidRequest.getD 7 0 = 0x00#8 ∧ getEidRequest.getD 9 0 = 0x02#8 := by decide

theorem wit_ReplyHeaderBytes : ReplyKind.setEid ≠ .none ∧ ReplyKind.getPortState ≠ .none := by decide

theorem wit_FmApiSubHeaderBytes :
    (ReplyKind.identifySwitch = .identifySwitch ∨ ReplyKind.identifySwitch = .getPortState) ∧
    (ReplyKind.getPortState = .identifySwitch ∨ ReplyKind.getPortState = .getPortState) := by decide

theorem wit_PortBlockBytes :
    (0x00#8).toNat < 2 ∧ (0x01#8).toNat < 2 ∧ 2 ≤ (0x02#8).toNat ∧ 2 ≤ (0xFF#8).toNat := by decide

/-- PortBlocksInRequestOrder and ReplyLengths. -/
theorem wit_port_lists :
    tenPorts.fmNports.toNat ≤ 10 ∧ 9 < tenPorts.fmNports.toNat ∧ Ctx.cleared.fmNports.toNat ≤ 10 := by decide

theorem wit_ReplyImageInvariants :
    tenPorts.fmNports.toNat ≤ 10 ∧ rowReplyKind (decodeKey tenPorts.key) = .getPortState := by decide

theorem wit_ChecksumUpdateIsEightShifts : (0x5A#8 ^^^ 0xA5#8 : Byte) = 0x00#8 ^^^ 0xFF#8 := by decide

/-- Whichever way `P_EID_COMMIT` is set, an instruction commits an EID. -/
theorem wit_OnlySetEidWritesEid :
    ∃ i s t, exec i s = .next t ∧ t.eid ≠ s.eid := by
  cases h : Config.params.eidCommit with
  | immediate =>
    refine ⟨.rxByte 0x0A, { receiving 11 (controlCtx 0x01) with eid := 0x00 }, _, rfl, ?_⟩
    simp only [capture, captureControl, controlBodyParser, parseSetEid, h]
    decide
  | atFinish =>
    refine ⟨.finish,
      { receiving 12 { controlCtx 0x01 with ctlArg1 := 0x0A, arg1Seen := true } with eid := 0x00 },
      _, rfl, ?_⟩
    simp only [h]
    decide

theorem wit_SendBufferFrame :
    (∃ t, exec .ctrlGetEid pendingGetEid = .next t) ∧ storeIndex .ctrlGetEid pendingGetEid ≠ some 1 ∧
    (∃ t, exec .txAck (sendingAt 14) = .next t) ∧ storeIndex .txAck (sendingAt 14) ≠ some 13 ∧
    (∃ t, exec .txAck (sendingAt 15) = .next t) ∧ storeIndex .txAck (sendingAt 15) ≠ some 15 :=
  ⟨⟨_, rfl⟩, by decide, ⟨_, rfl⟩, by decide, ⟨_, rfl⟩, by decide⟩

theorem wit_OutputsAreAppended : ∃ t, exec .nack (sendingAt 4) = .next t := ⟨_, rfl⟩

theorem wit_OnlyAGrantStartsAReply :
    ∃ t, exec .ctrlGetEid pendingGetEid = .next t ∧
      countAction (.txStart 0x08) t.output ≠ countAction (.txStart 0x08) pendingGetEid.output :=
  ⟨_, rfl, by decide⟩

theorem wit_TransitionSummary :
    pendingGetEid.fault = false ∧ (∃ t, exec .busGrant pendingGetEid = .next t) := ⟨rfl, _, rfl⟩

theorem wit_BusBalanceIsKept :
    busBalanced pendingGetEid ∧ (∃ t, exec .busGrant pendingGetEid = .next t) := by
  refine ⟨?_, _, rfl⟩
  unfold busBalanced
  decide

/-! ### A state of a reply in progress that meets the invariant -/

/-- Write bytes one after the other, from an index. -/
def fill : Nat → List Byte → Memory → Memory
  | _, [], m => m
  | k, b :: bs, m => fill (k + 1) bs (m.write k b)

theorem fill_wf : ∀ (bs : List Byte) (k : Nat) (m : Memory), m.wf = true → k + bs.length ≤ 256 →
    (fill k bs m).wf = true
  | [], _, _, h, _ => h
  | b :: bs, k, m, h, hk => by
    simp only [List.length_cons] at hk
    exact fill_wf bs (k + 1) _ (wf_write h (by simp only [sendbufCap]; omega) b) (by omega)

theorem fill_read_before : ∀ (bs : List Byte) (k : Nat) (m : Memory) (a : Nat), a < k →
    (fill k bs m).read a = m.read a
  | [], _, _, _, _ => rfl
  | b :: bs, k, m, a, ha => by
    rw [fill, fill_read_before bs (k + 1) _ a (by omega), read_write_other (by omega)]

theorem fill_read : ∀ (bs : List Byte) (k : Nat) (m : Memory), m.wf = true → k + bs.length ≤ 256 →
    ∀ i, i < bs.length → some ((fill k bs m).read (k + i)) = bs[i]?
  | b :: bs, k, m, h, hk, i, hi => by
    simp only [List.length_cons] at hk hi
    have hw : (m.write k b).wf = true := wf_write h (by simp only [sendbufCap]; omega) b
    cases i with
    | zero =>
      have h0 : (fill (k + 1) bs (m.write k b)).read k = b := by
        rw [fill_read_before bs (k + 1) _ k (by omega), read_write_same h]
      exact congrArg some h0
    | succ i =>
      rw [fill, show k + (i + 1) = k + 1 + i by omega, fill_read bs (k + 1) _ hw (by omega) i (by omega)]
      rfl

/-- The PEC slot of a Get Endpoint ID reply, everything before it sent; a TX_ACK is delivered. -/
def atPec : State :=
  { sendingAt 15 with
    sendbuf := fill 0 (replyImage Config.params .getEid (sendingAt 15).eid (sendingAt 15).ctx) []
    input := [.event (eventWord 7 0)] }

theorem atPec_inv : atPec.Inv where
  buffer := fill_wf _ 0 [] rfl (Nat.le_of_ble_eq_true rfl)
  count := by decide
  notStartSend := by decide
  pending := by decide
  answered := by decide
  faultCode := by decide
  outside := by decide
  notSending := by decide
  unreached := by constructor <;> decide
  sending _ :=
    { kind := by decide
      length := rfl
      first := by decide
      last := by decide
      sent := by
        intro i _ hi
        have h := fill_read (replyImage Config.params .getEid (sendingAt 15).eid (sendingAt 15).ctx) 0 [] rfl
          (Nat.le_of_ble_eq_true rfl) i hi
        rwa [Nat.zero_add] at h }

/-- PecCoversTheWholeImage and NothingStopsUnderTheInvariant. -/
theorem wit_PecCoversTheWholeImage :
    atPec.Inv ∧ atPec.fault = false ∧ atPec.st = .ack ∧ atPec.txPos = atPec.txLen :=
  ⟨atPec_inv, rfl, rfl, rfl⟩

theorem wit_StepKeepsTheInvariant : atPec.Inv ∧ (∃ t, step atPec = .next t) := ⟨atPec_inv, _, rfl⟩

end Sys2Proof.Machine.Tests
end

namespace Sys2Proof.Machine

open Sys2Proof

/-! SUPPORT. Facts about the operations that the statements on the state need: the events on an unfaulted
state, the saturating position, the length of an image, and the Frame Context after a byte. -/

/-! ### Case split on an instruction -/

/-- BUS_GRANT and the thirteen request rows are one case (30_encoding.md R92,
R93), each other event is its own. -/
theorem instr_grant_or_event {P : Instr → Prop} (grant : ∀ i : Instr, i.isGrant = true → P i)
    (startWrite : P .startWrite) (rxByte : ∀ b, P (.rxByte b)) (finish : P .finish) (nack : P .nack)
    (startRead : P .startRead) (readReq : P .readReq) (txAck : P .txAck) (i : Instr) : P i := by
  cases i with
  | startWrite => exact startWrite
  | rxByte b => exact rxByte b
  | finish => exact finish
  | nack => exact nack
  | startRead => exact startRead
  | readReq => exact readReq
  | txAck => exact txAck
  | _ => exact grant _ rfl

/-! ### The events on an unfaulted state -/

section
variable {s : State}

/-- RX_BYTE in RX: the CRC first, then the field, then the position (41_ingestion.md R132). -/
theorem rxByte_receiving (p : Params) (b : Byte) (hf : s.fault = false) (hst : s.st = .rx) :
    rxByte p b s = .next
      { capture p s.rxPos.toNat b { s with rxCrc := crc8Update s.rxCrc b } with
        rxPos := sat16 (s.rxPos.toNat + 1) } := by
  rw [rxByte, guarded_sound hf, if_pos hst]
  simp

/-- TX_ACK in ACK runs the slot `TX_POS` names (41_ingestion.md R143). -/
theorem txAck_sending (p : Params) (hf : s.fault = false) (hst : s.st = .ack) : txAck p s = ackStep p s := by
  rw [txAck, guarded_sound hf, if_pos hst]

/-- A guarded result answers a next state when the result of an unfaulted block does. -/
theorem guarded_answers {r : Result} (hr : s.fault = false → ∃ t, r = .next t) :
    ∃ t, guarded s r = .next t := by
  cases hf : s.fault with
  | true => exact ⟨s, guarded_faulted hf r⟩
  | false => rw [guarded_sound hf]; exact hr hf

end

/-! ### The saturating position -/

theorem sat16_toNat (v : Nat) : (sat16 v).toNat = min v 0xFFFF := by
  rw [sat16, BitVec.toNat_ofNat]
  omega

/-- The position after a byte: one more, or held at 0xFFFF (10_state.md R31). -/
theorem sat16_succ (v : BitVec 16) :
    sat16 (v.toNat + 1) = if v = 0xFFFF#16 then 0xFFFF#16 else v + 1 := by
  apply BitVec.eq_of_toNat_eq
  rw [sat16_toNat]
  split
  · next hv => rw [hv]; rfl
  · bv_omega

/-! ### The length of a reply image -/

section
variable {c : Ctx}

/-- The largest payload is the one of ten port blocks (43_fmapi_commands.md R212). -/
theorem replyPayload_length_le (p : Params) (kind : ReplyKind) (eid : Byte) (hc : c.fmNports.toNat ≤ 10) :
    (replyPayload p kind eid c).length ≤ 164 := by
  cases kind with
  | getUuid => simp [replyPayload, payloadGetUuid]
  | identifySwitch => simp [replyPayload, payloadIdentifySwitch]
  | getPortState =>
    have hlen := requestedPorts_length hc
    simp only [replyPayload, payloadGetPortState, List.length_append, flatMap_portBlock_length,
      List.length_cons, List.length_nil]
    omega
  | _ => exact Nat.le_of_ble_eq_true rfl

theorem replySubHeader_length_le (kind : ReplyKind) (plen : Nat) :
    (replySubHeader kind c plen).length ≤ 12 := by
  cases kind <;> simp [replySubHeader]

/-- "The largest image is 185 bytes" (44_responder.md R235). -/
theorem replyImage_length_le (p : Params) (kind : ReplyKind) (eid : Byte) (hc : c.fmNports.toNat ≤ 10) :
    (replyImage p kind eid c).length ≤ 185 := by
  by_cases hk : kind = .none
  · subst hk
    exact Nat.zero_le _
  · have hpay := replyPayload_length_le p kind eid hc
    have hsub := replySubHeader_length_le (c := c) kind (replyPayload p kind eid c).length
    rw [replyImage_eq p hk, List.length_append, replyHeader_length, replyBody, List.length_append]
    omega

end

/-! ### The Frame Context after a byte -/

/-- Each header register takes the byte of its own position (41_ingestion.md R133). -/
theorem captureHeader_eq (n : Nat) (b : Byte) (c : Ctx) :
    captureHeader n b c =
      { c with
        preamble := if n = 0 then b else c.preamble
        byteCount := if n = 1 then b else c.byteCount
        srcAddr := if n = 2 then b else c.srcAddr
        hdrVer := if n = 3 then b else c.hdrVer
        dstEid := if n = 4 then b else c.dstEid
        srcEid := if n = 5 then b else c.srcEid
        tagByte := if n = 6 then b else c.tagByte
        msgType := if n = 7 then b else c.msgType } := by
  unfold captureHeader
  split <;> simp_all

/-- The registers Set Endpoint ID parses (42_control_commands.md R171). -/
theorem parseSetEid_ctx (p : Params) (n : Nat) (b : Byte) (s : State) :
    (parseSetEid p n b s).ctx =
      { s.ctx with
        ctlArg0 := if n = 10 then b else s.ctx.ctlArg0
        ctlArg1 := if n = 11 then b else s.ctx.ctlArg1
        arg1Seen := if n = 11 then true else s.ctx.arg1Seen } := by
  by_cases h10 : n = 10
  · subst h10; rfl
  by_cases h11 : n = 11
  · subst h11; rfl
  simp only [parseSetEid, h10, h11, if_false]

/-- The register Get Version parses (42_control_commands.md R176). -/
theorem parseGetVersion_ctx (n : Nat) (b : Byte) (s : State) :
    (parseGetVersion n b s).ctx = { s.ctx with ctlArg0 := if n = 10 then b else s.ctx.ctlArg0 } := by
  unfold parseGetVersion
  split <;> rfl

/-- The register Get Vendor-Defined-Message Support parses (42_control_commands.md R179). -/
theorem parseGetVdm_ctx (n : Nat) (b : Byte) (s : State) :
    (parseGetVdm n b s).ctx = { s.ctx with ctlArg0 := if n = 10 then b else s.ctx.ctlArg0 } :=
  parseGetVersion_ctx n b s

/-- The control registers after a byte at position 8 or later (41_ingestion.md R135). -/
theorem captureControl_ctx (p : Params) (n : Nat) (b : Byte) (s : State) :
    (captureControl p n b s).ctx =
      { s.ctx with
        ctlFlags := if n = 8 then b else s.ctx.ctlFlags
        ctlCmd := if n = 9 then b else s.ctx.ctlCmd
        ctlArg0 :=
          if n = 10 ∧ (s.ctx.ctlCmd = 0x01#8 ∨ s.ctx.ctlCmd = 0x04#8 ∨ s.ctx.ctlCmd = 0x06#8) then b
          else s.ctx.ctlArg0
        ctlArg1 := if n = 11 ∧ s.ctx.ctlCmd = 0x01#8 then b else s.ctx.ctlArg1
        arg1Seen := if n = 11 ∧ s.ctx.ctlCmd = 0x01#8 then true else s.ctx.arg1Seen } := by
  by_cases h8 : n = 8
  · subst h8; rfl
  by_cases h9 : n = 9
  · subst h9; rfl
  simp only [captureControl, controlBodyParser, h8, h9, if_false]
  by_cases h1 : s.ctx.ctlCmd = 0x01#8
  · rw [if_pos h1, parseSetEid_ctx]
    simp only [h1, true_or, and_true]
  by_cases h4 : s.ctx.ctlCmd = 0x04#8
  · rw [if_neg h1, if_pos h4, parseGetVersion_ctx]
    simp [h4]
  by_cases h6 : s.ctx.ctlCmd = 0x06#8
  · rw [if_neg h1, if_neg h4, if_pos h6, parseGetVdm_ctx]
    simp [h6]
  · simp only [h1, h4, h6, or_self, and_false, if_false]

/-- The registers Get Physical Port State parses (43_fmapi_commands.md R210, R211). -/
theorem portStateParser_eq {n : Nat} (hn : 20 ≤ n) (b : Byte) (c : Ctx) :
    portStateParser n b c =
      { c with
        fmNports := if n = 20 then clampPorts b else c.fmNports
        ports := if 21 ≤ n ∧ n - 21 < c.fmNports.toNat then c.ports.setIfInBounds (n - 21) b else c.ports } := by
  by_cases h20 : n = 20
  · subst h20; rfl
  have h21 : 21 ≤ n := by omega
  by_cases hport : n - 21 < c.fmNports.toNat
  · simp only [portStateParser, h20, h21, hport, if_true, if_false, and_self]
  · simp only [portStateParser, h20, hport, if_false, and_false]

/-- The FM-API registers after a byte at position 8 or later (41_ingestion.md R136, 43_fmapi_commands.md
R210, R211). -/
theorem captureFmApi_eq (n : Nat) (b : Byte) (c : Ctx) :
    captureFmApi n b c =
      { c with
        fmCategory := if n = 8 then b else c.fmCategory
        fmTag := if n = 9 then b else c.fmTag
        fmCmd := if n = 11 then b else c.fmCmd
        fmSet := if n = 12 then b else c.fmSet
        fmNports := if n = 20 ∧ c.fmSet = 0x51#8 ∧ c.fmCmd = 0x01#8 then clampPorts b else c.fmNports
        ports :=
          if 21 ≤ n ∧ c.fmSet = 0x51#8 ∧ c.fmCmd = 0x01#8 ∧ n - 21 < c.fmNports.toNat then
            c.ports.setIfInBounds (n - 21) b
          else c.ports } := by
  by_cases hlow : n < 20
  · interval_cases n <;> rfl
  have h20 : 20 ≤ n := by omega
  have hpast : n ≠ 8 ∧ n ≠ 9 ∧ n ≠ 10 ∧ n ≠ 11 ∧ n ≠ 12 ∧ ¬ n ≤ 19 := by omega
  obtain ⟨h8, h9, h10, h11, h12, h19⟩ := hpast
  simp only [captureFmApi, h8, h9, h10, h11, h12, h19, if_false]
  by_cases hget : c.fmSet = 0x51#8 ∧ c.fmCmd = 0x01#8
  · rw [if_pos hget, portStateParser_eq h20]
    simp only [hget, true_and, and_true]
  · have hports : ¬ (21 ≤ n ∧ c.fmSet = 0x51#8 ∧ c.fmCmd = 0x01#8 ∧ n - 21 < c.fmNports.toNat) :=
      fun ⟨_, hset, hcmd, _⟩ => hget ⟨hset, hcmd⟩
    simp only [hget, hports, and_false, if_false]

end Sys2Proof.Machine

namespace Sys2Proof.Machine

open Sys2Proof

/-! SUPPORT. The Frame Context's part of the invariant, kept by every byte. -/

/-! ### Registers no byte has reached stay clear (30_encoding.md R91) -/

theorem UnreachedZero.of_cleared (n : Nat) : UnreachedZero n Ctx.cleared := by
  constructor <;> intros
  case ports i hi _ => exact Vector.getElem_replicate hi
  all_goals rfl

/-- At a later position fewer registers must be clear, and from position 31 on none for its own position. -/
theorem UnreachedZero.mono {n m : Nat} {c : Ctx} (h : UnreachedZero n c) (hm : n ≤ m ∨ 31 ≤ m) :
    UnreachedZero m c where
  preamble hk := h.preamble (by omega)
  byteCount hk := h.byteCount (by omega)
  srcAddr hk := h.srcAddr (by omega)
  hdrVer hk := h.hdrVer (by omega)
  dstEid hk := h.dstEid (by omega)
  srcEid hk := h.srcEid (by omega)
  tagByte hk := h.tagByte (by omega)
  msgType hk := h.msgType (by omega)
  ctlFlags hk := h.ctlFlags (hk.imp_left (by omega))
  ctlCmd hk := h.ctlCmd (hk.imp_left (by omega))
  ctlArg0 hk := h.ctlArg0 (hk.imp_left (by omega))
  ctlArg1 hk := h.ctlArg1 (hk.imp_left (by omega))
  arg1Seen hk := h.arg1Seen (hk.imp_left (by omega))
  fmCategory hk := h.fmCategory (hk.imp_left (by omega))
  fmTag hk := h.fmTag (hk.imp_left (by omega))
  fmCmd hk := h.fmCmd (hk.imp_left (by omega))
  fmSet hk := h.fmSet (hk.imp_left (by omega))
  fmNports hk := h.fmNports (hk.imp_left (by omega))
  ports i hi hk := h.ports i hi (hk.imp_left (by omega))

/-- A register of position `k` is still clear after a byte at an earlier position `n`. -/
theorem clear_of_earlier {α : Type} {n k : Nat} {P : Prop} [Decidable P] {b x z : α} (hk : n + 1 ≤ k)
    (hP : P → n = k) (hx : n ≤ k → x = z) : (if P then b else x) = z := by
  rw [if_neg fun hp => by have := hP hp; omega]
  exact hx (by omega)

/-- A port is still clear after a port ID is stored at another index. -/
theorem port_clear_of_other {P : Prop} [Decidable P] {ports : Vector Byte 10} {j i : Nat} {b : Byte}
    (hi : i < 10) (hP : P → j ≠ i) (h : ports[i] = 0) :
    (if P then ports.setIfInBounds j b else ports)[i] = 0 := by
  split
  · next hp => rw [Vector.getElem_setIfInBounds_ne _ (hP hp)]; exact h
  · exact h

/-- A header byte reaches its own register; every body register is still clear (41_ingestion.md R133). -/
theorem UnreachedZero.captureHeader {n : Nat} {c : Ctx} (h : UnreachedZero n c) (hn : n < 8) (b : Byte) :
    UnreachedZero (n + 1) (captureHeader n b c) := by
  rw [captureHeader_eq]
  exact
    { preamble := fun hk => clear_of_earlier hk id h.preamble
      byteCount := fun hk => clear_of_earlier hk id h.byteCount
      srcAddr := fun hk => clear_of_earlier hk id h.srcAddr
      hdrVer := fun hk => clear_of_earlier hk id h.hdrVer
      dstEid := fun hk => clear_of_earlier hk id h.dstEid
      srcEid := fun hk => clear_of_earlier hk id h.srcEid
      tagByte := fun hk => clear_of_earlier hk id h.tagByte
      msgType := fun hk => clear_of_earlier hk id h.msgType
      ctlFlags := fun _ => h.ctlFlags (.inl (by omega))
      ctlCmd := fun _ => h.ctlCmd (.inl (by omega))
      ctlArg0 := fun _ => h.ctlArg0 (.inl (by omega))
      ctlArg1 := fun _ => h.ctlArg1 (.inl (by omega))
      arg1Seen := fun _ => h.arg1Seen (.inl (by omega))
      fmCategory := fun _ => h.fmCategory (.inl (by omega))
      fmTag := fun _ => h.fmTag (.inl (by omega))
      fmCmd := fun _ => h.fmCmd (.inl (by omega))
      fmSet := fun _ => h.fmSet (.inl (by omega))
      fmNports := fun _ => h.fmNports (.inl (by omega))
      ports := fun i hi _ => h.ports i hi (.inl (by omega)) }

/-- A control byte reaches the control register of its position (41_ingestion.md R135). -/
theorem UnreachedZero.captureControl {n : Nat} {s : State} (h : UnreachedZero n s.ctx)
    (hsub : s.ctx.subCtx = .control) (p : Params) (b : Byte) :
    UnreachedZero (n + 1) (captureControl p n b s).ctx := by
  have reached {m : Nat} (hk : n + 1 ≤ m ∨ s.ctx.subCtx ≠ .control) : n + 1 ≤ m :=
    hk.resolve_right (not_not_intro hsub)
  rw [captureControl_ctx]
  exact
    { h.mono (.inl (Nat.le_succ n)) with
      ctlFlags := fun hk => clear_of_earlier (reached hk) id (h.ctlFlags ∘ .inl)
      ctlCmd := fun hk => clear_of_earlier (reached hk) id (h.ctlCmd ∘ .inl)
      ctlArg0 := fun hk => clear_of_earlier (reached hk) And.left (h.ctlArg0 ∘ .inl)
      ctlArg1 := fun hk => clear_of_earlier (reached hk) And.left (h.ctlArg1 ∘ .inl)
      arg1Seen := fun hk => clear_of_earlier (reached hk) And.left (h.arg1Seen ∘ .inl) }

/-- An FM-API byte reaches the FM-API register of its position, a port ID the port its position names
(41_ingestion.md R136, 43_fmapi_commands.md R210, R211). -/
theorem UnreachedZero.captureFmApi {n : Nat} {c : Ctx} (h : UnreachedZero n c) (hsub : c.subCtx = .fmapi)
    (b : Byte) : UnreachedZero (n + 1) (captureFmApi n b c) := by
  have reached {m : Nat} (hk : n + 1 ≤ m ∨ c.subCtx ≠ .fmapi) : n + 1 ≤ m :=
    hk.resolve_right (not_not_intro hsub)
  rw [captureFmApi_eq]
  exact
    { h.mono (.inl (Nat.le_succ n)) with
      fmCategory := fun hk => clear_of_earlier (reached hk) id (h.fmCategory ∘ .inl)
      fmTag := fun hk => clear_of_earlier (reached hk) id (h.fmTag ∘ .inl)
      fmCmd := fun hk => clear_of_earlier (reached hk) id (h.fmCmd ∘ .inl)
      fmSet := fun hk => clear_of_earlier (reached hk) id (h.fmSet ∘ .inl)
      fmNports := fun hk => clear_of_earlier (reached hk) And.left (h.fmNports ∘ .inl)
      ports := fun i hi hk => by
        have hearlier : n + 1 ≤ 21 + i ∨ c.fmNports.toNat ≤ i := by
          by_cases h20 : n = 20
          · exact .inl (by omega)
          · exact hk.imp_right (by simp only [h20, false_and, if_false, imp_self])
        exact port_clear_of_other hi (fun ⟨_, _, _, hlt⟩ => by omega)
          (h.ports i hi (hearlier.imp_left (by omega))) }

/-- Whatever the sub-context, a byte reaches no register but the one of its position. -/
theorem UnreachedZero.capture {n : Nat} {s : State} (h : UnreachedZero n s.ctx) (p : Params) (b : Byte) :
    UnreachedZero (n + 1) (capture p n b s).ctx := by
  unfold Machine.capture
  split
  · next hn => exact h.captureHeader hn b
  · split
    · next hsub => exact h.captureControl hsub p b
    · next hsub => exact h.captureFmApi hsub b
    · exact h.mono (.inl (Nat.le_succ n))

/-! ### The port count stays within the array (10_state.md R26) -/

theorem clampPorts_le (b : Byte) : (clampPorts b).toNat ≤ portCap := by
  rw [clampPorts, BitVec.toNat_ofNat]
  exact (Nat.mod_le _ _).trans (Nat.min_le_right _ _)

theorem capture_fmNports_le {s : State} (h : s.ctx.fmNports.toNat ≤ portCap) (p : Params) (n : Nat)
    (b : Byte) : (capture p n b s).ctx.fmNports.toNat ≤ portCap := by
  unfold capture
  split
  · rw [captureHeader_eq]; exact h
  · split
    · rw [captureControl_ctx]; exact h
    · simp only [captureFmApi_eq]
      split
      · exact clampPorts_le b
      · exact h
    · exact h

end Sys2Proof.Machine

namespace Sys2Proof.Machine

open Sys2Proof

/-! CERTIFICATE. The invariant holds at reset and every step keeps it. -/

/-! ### Updates that keep the invariant -/

section
variable {s : State}

/-- The interface fields of the model's own are no part of a reply. -/
theorem ReplyInProgress.keepInterface (h : ReplyInProgress s) (input : List Stimulus)
    (output : List Action) (draws : Nat) :
    ReplyInProgress { s with input := input, output := output, draws := draws } where
  kind := h.kind
  length := h.length
  first := h.first
  last := h.last
  sent := h.sent

/-- The fields of the model's own are no part of the invariant. -/
theorem State.Inv.keepInterface (h : s.Inv) (input : List Stimulus) (output : List Action) (draws : Nat) :
    State.Inv { s with input := input, output := output, draws := draws } :=
  { h with sending := fun hst => (h.sending hst).keepInterface input output draws }

/-- A host-contract fault writes `FAULT` and its code alone (60_exceptions.md R264). -/
theorem State.Inv.raiseFault (h : s.Inv) {code : FaultCode} (hcode : code ≠ .none) :
    (s.raiseFault code).Inv :=
  { h with
    faultCode := by simp [hcode]
    sending := fun hst =>
      have hsend := h.sending hst
      ⟨hsend.kind, hsend.length, hsend.first, hsend.last, hsend.sent⟩ }

/-- Clearing the transaction and leaving in IDLE, RX or RD establishes all but the send buffer's form and the
agreement of the fault registers, which it does not touch (10_state.md R21). -/
theorem State.inv_of_cleared (hbuf : s.sendbuf.wf = true)
    (hfault : s.fault = true ↔ s.faultCode ≠ .none) {st : St} (hst : st = .idle ∨ st = .rx ∨ st = .rd) :
    State.Inv { s.clearCtx with st := st } where
  buffer := hbuf
  count := Nat.zero_le _
  notStartSend := by rintro rfl; simp at hst
  pending := by rintro rfl; simp at hst
  answered := by rintro rfl; simp at hst
  faultCode := hfault
  outside _ := ⟨rfl, rfl⟩
  notSending _ := ⟨rfl, rfl, rfl⟩
  unreached := UnreachedZero.of_cleared _
  sending := by rintro rfl; simp at hst

theorem State.Inv.cleared (h : s.Inv) {st : St} (hst : st = .idle ∨ st = .rx ∨ st = .rd) :
    State.Inv { s.clearCtx with st := st } :=
  State.inv_of_cleared h.buffer h.faultCode hst

/-- A transaction ends the same way whatever was emitted last and however `BUS_REQ` stands. -/
theorem State.Inv.ended (h : s.Inv) (busReq : Bool) (output : List Action) :
    State.Inv ({ s with busReq := busReq, output := output } : State).endTransaction :=
  State.inv_of_cleared (s := { s with busReq := busReq, output := output }) h.buffer h.faultCode (.inl rfl)

/-- A reset, like the state after reset, is a cleared IDLE with an empty send buffer and no fault. -/
theorem State.takeReset_inv (s : State) : s.takeReset.Inv :=
  State.inv_of_cleared (s := s.takeReset) wf_nil (by simp) (.inl rfl)

/-! ### RX_BYTE and FINISH -/

/-- A byte in RX reaches its own register and moves the position past it (41_ingestion.md R132). -/
theorem State.Inv.received (h : s.Inv) (hst : s.st = .rx) (p : Params) (b crc : Byte) :
    State.Inv { capture p s.rxPos.toNat b { s with rxCrc := crc } with rxPos := sat16 (s.rxPos.toNat + 1) }
    where
  buffer := by simpa using h.buffer
  count := capture_fmNports_le (s := { s with rxCrc := crc }) h.count p _ b
  notStartSend := by simp [hst]
  pending := by simp [hst]
  answered := by simp [hst]
  faultCode := by simpa using h.faultCode
  outside := by simp [hst]
  notSending := by simpa using h.notSending
  unreached := by
    have hreached := UnreachedZero.capture (s := { s with rxCrc := crc }) h.unreached p b
    exact hreached.mono (by rw [sat16_toNat]; omega)
  sending := by simp [hst]

/-- A complete request is pending with the bus asked for (41_ingestion.md R139). -/
theorem State.Inv.finished (h : s.Inv) (hst : s.st = .rx) (eid : Byte) (output : List Action) :
    State.Inv { s with eid := eid, st := .processRequest, busReq := true, output := output } :=
  { h with
    notStartSend := by simp
    pending := fun _ => rfl
    answered := by simp
    outside := by simp
    notSending := fun _ => h.notSending (by simp [hst])
    sending := by simp }

/-- FINISH in IDLE or RD has nothing to finish (41_ingestion.md R139). -/
theorem State.Inv.idled (h : s.Inv) (hst : s.st = .idle ∨ s.st = .rd) :
    State.Inv { s with st := .idle } :=
  { h with
    notStartSend := by simp
    pending := by simp
    answered := by simp
    outside := fun _ => h.outside hst
    notSending := fun _ => h.notSending (by rcases hst with hst | hst <;> simp [hst])
    sending := by simp }

/-! ### BUS_GRANT -/

/-- A grant that comes after its request was withdrawn (41_ingestion.md R142). -/
theorem State.Inv.released (h : s.Inv) (hst : s.st ≠ .processRequest) (output : List Action) :
    State.Inv { s with busReq := false, output := output } :=
  { h with
    pending := fun hp => absurd hp hst
    answered := fun _ => rfl
    sending := fun hack =>
      have hsend := h.sending hack
      ⟨hsend.kind, hsend.length, hsend.first, hsend.last, hsend.sent⟩ }

/-- The length of the image fits `TX_LEN` (44_responder.md R235). -/
theorem replyImage_length_toNat (p : Params) (kind : ReplyKind) (eid : Byte) {c : Ctx}
    (hc : c.fmNports.toNat ≤ 10) :
    (BitVec.ofNat 8 (replyImage p kind eid c).length).toNat = (replyImage p kind eid c).length := by
  have := replyImage_length_le p kind eid hc
  rw [BitVec.toNat_ofNat]
  omega

/-- A reply starts with its address byte in the send buffer (44_responder.md R234). -/
theorem State.Inv.replyStarted (h : s.Inv) {kind : ReplyKind} (hk : kind ≠ .none) :
    (processRequest Config.params kind { s with busReq := false }).Inv := by
  rw [processRequest_reply _ hk]
  exact
    { buffer := wf_write h.buffer (by simp [sendbufCap]) _
      count := h.count
      notStartSend := by simp
      pending := by simp
      answered := fun _ => rfl
      faultCode := h.faultCode
      outside := by simp
      notSending := by simp
      unreached := h.unreached
      sending := fun _ =>
        { kind := hk
          length := replyImage_length_toNat _ kind _ h.count
          first := Nat.le_refl 1
          last := Nat.le_add_left 1 _
          sent := fun i hi _ => by
            have hzero : i = 0 := Nat.lt_one_iff.mp hi
            subst hzero
            exact (congrArg some (read_write_same h.buffer 0 _)).trans (replyImage_head _ hk _ _).symm } }

/-- A served request is answered or dropped (44_responder.md R233). -/
theorem State.Inv.processed (h : s.Inv) (kind : ReplyKind) :
    (processRequest Config.params kind { s with busReq := false }).Inv := by
  by_cases hk : kind = .none
  · subst hk
    exact h.ended false (s.output ++ [.busRelease])
  · exact h.replyStarted hk

/-! ### TX_ACK -/

/-- In ACK the next slot keeps the invariant when the reply goes on in it: only the send buffer, the position
and the output move. -/
theorem State.Inv.replyAdvanced (h : s.Inv) (hst : s.st = .ack) {buf : Memory} (hbuf : buf.wf = true)
    {pos : Byte} {output : List Action}
    (hsend : ReplyInProgress { s with sendbuf := buf, txPos := pos, output := output }) :
    State.Inv { s with sendbuf := buf, txPos := pos, output := output } :=
  { h with
    buffer := hbuf
    notSending := fun hne => absurd hst hne
    sending := fun _ => hsend }

/-- A data slot stores the image's byte at its position (44_responder.md R236). -/
theorem ReplyInProgress.dataSlot (h : ReplyInProgress s) (hbuf : s.sendbuf.wf = true)
    (hlt : s.txPos < s.txLen) {b : Byte} (hb : (s.image Config.params)[s.txPos.toNat]? = some b)
    (output : List Action) :
    ReplyInProgress
      { s with sendbuf := s.sendbuf.write s.txPos.toNat b, txPos := s.txPos + 1, output := output } := by
  have hpos : (s.txPos + 1).toNat = s.txPos.toNat + 1 := by bv_omega
  have hslot : s.txPos.toNat < s.txLen.toNat := hlt
  exact
    { kind := h.kind
      length := h.length
      first := by simp only [hpos]; omega
      last := by simp only [hpos]; omega
      sent := fun i hi hlen => by
        simp only [hpos] at hi
        by_cases hnew : i = s.txPos.toNat
        · subst hnew
          exact (congrArg some (read_write_same hbuf _ b)).trans hb.symm
        · exact (congrArg some (read_write_other hnew _ b)).trans (h.sent i (by omega) hlen) }

/-- The PEC slot sends a byte that is not in the buffer and moves past the last slot of the image
(44_responder.md R237). The bound keeps the position from wrapping. -/
theorem ReplyInProgress.pecSlot (h : ReplyInProgress s) (hc : s.ctx.fmNports.toNat ≤ portCap)
    (heq : s.txPos = s.txLen) (output : List Action) :
    ReplyInProgress { s with txPos := s.txPos + 1, output := output } := by
  have hbound : s.txLen.toNat ≤ 185 := h.length ▸ replyImage_length_le _ _ _ hc
  have hpos : (s.txPos + 1).toNat = s.txLen.toNat + 1 := by rw [heq]; bv_omega
  exact
    { kind := h.kind
      length := h.length
      first := by simp only [hpos]; omega
      last := by simp only [hpos]; omega
      sent := fun i _ hlen => h.sent i (by rw [heq]; exact hlen) hlen }

end

/-! ### Every instruction and every step keep the invariant -/

theorem grant_keeps_inv {s t : State} {kind : ReplyKind} (h : s.Inv)
    (hexec : grant Config.params kind s = .next t) : t.Inv := by
  obtain ⟨_, rfl⟩ | ⟨_, _, rfl⟩ | ⟨_, _, hst, rfl⟩ | ⟨_, _, _, rfl⟩ := grant_next hexec
  · exact h
  · exact h.raiseFault (by simp)
  · exact h.released hst _
  · exact h.processed kind

theorem startWrite_keeps_inv {s t : State} (h : s.Inv) (hexec : execStartWrite s = .next t) : t.Inv := by
  obtain ⟨_, rfl⟩ | ⟨_, _, rfl⟩ | ⟨_, _, rfl⟩ := startWrite_next hexec
  · exact h
  · exact h.cleared (by simp)
  · exact h.raiseFault (by simp)

theorem startRead_keeps_inv {s t : State} (h : s.Inv) (hexec : execStartRead s = .next t) : t.Inv := by
  obtain ⟨_, rfl⟩ | ⟨_, _, rfl⟩ | ⟨_, _, rfl⟩ := startRead_next hexec
  · exact h
  · exact h.cleared (by simp)
  · exact h.raiseFault (by simp)

theorem rxByte_keeps_inv {p : Params} {b : Byte} {s t : State} (h : s.Inv)
    (hexec : rxByte p b s = .next t) : t.Inv := by
  obtain ⟨_, rfl⟩ | ⟨_, hst, rfl⟩ | ⟨_, _, rfl⟩ := rxByte_next hexec
  · exact h
  · exact h.received hst p b _
  · exact h.raiseFault (by simp)

theorem finish_keeps_inv {p : Params} {s t : State} (h : s.Inv) (hexec : finish p s = .next t) : t.Inv := by
  obtain ⟨_, rfl⟩ | ⟨_, hst, rfl⟩ | ⟨_, hst, rfl⟩ | ⟨_, _, rfl⟩ := finish_next hexec
  · exact h
  · exact h.finished hst _ _
  · exact h.idled hst
  · exact h.raiseFault (by simp)

theorem nack_keeps_inv {s t : State} (h : s.Inv) (hexec : execNack s = .next t) : t.Inv := by
  obtain ⟨_, rfl⟩ | ⟨_, _, rfl⟩ | ⟨_, _, rfl⟩ | ⟨_, _, rfl⟩ := nack_next hexec
  · exact h
  · exact h
  · exact h.ended s.busReq s.output
  · exact h.ended s.busReq _

theorem readReq_keeps_inv {s t : State} (h : s.Inv) (hexec : execReadReq s = .next t) : t.Inv := by
  obtain ⟨_, rfl⟩ | ⟨_, _, rfl⟩ | ⟨_, _, rfl⟩ := readReq_next hexec
  · exact h
  · exact h.keepInterface s.input _ _
  · exact h.raiseFault (by simp)

theorem txAck_keeps_inv {s t : State} (h : s.Inv) (hexec : txAck Config.params s = .next t) : t.Inv := by
  obtain ⟨_, rfl⟩ | ⟨_, _, rfl⟩ | ⟨_, hst, hlt, b, hb, rfl⟩ | ⟨_, hst, heq, rfl⟩ | ⟨_, _, _, _, _, rfl⟩ :=
    txAck_next hexec
  · exact h
  · exact h.raiseFault (by simp)
  · exact h.replyAdvanced hst (State.writeSendbuf_wf h.buffer s.txPos b)
      ((h.sending hst).dataSlot h.buffer hlt hb _)
  · exact h.replyAdvanced hst h.buffer ((h.sending hst).pecSlot h.count heq _)
  · exact h.ended s.busReq _

theorem exec_keeps_inv {i : Instr} {s t : State} (h : s.Inv) (hexec : exec i s = .next t) : t.Inv := by
  induction i using instr_grant_or_event with
  | grant i hi => rw [exec_grant hi] at hexec; exact grant_keeps_inv h hexec
  | startWrite => exact startWrite_keeps_inv h hexec
  | rxByte b => exact rxByte_keeps_inv h hexec
  | finish => exact finish_keeps_inv h hexec
  | nack => exact nack_keeps_inv h hexec
  | startRead => exact startRead_keeps_inv h hexec
  | readReq => exact readReq_keeps_inv h hexec
  | txAck => exact txAck_keeps_inv h hexec

/-- All that a step can do: wait, take a reset, or run an instruction on the state without the stimulus. -/
theorem step_next {s t : State} (h : step s = .next t) :
    (s.input = [] ∧ t = s) ∨
    (∃ rest, s.input = .reset :: rest ∧ t = ({ s with input := rest } : State).takeReset) ∨
    (∃ w rest, s.input = .event w :: rest ∧
      exec (({ s with input := rest } : State).select (decodeEvent w)) { s with input := rest } = .next t) := by
  unfold step State.fetch at h
  cases hin : s.input with
  | nil =>
    simp only [hin] at h
    injection h with h
    exact .inl ⟨rfl, h.symm⟩
  | cons x rest =>
    cases x with
    | reset =>
      simp only [hin] at h
      injection h with h
      exact .inr (.inl ⟨rest, rfl, h.symm⟩)
    | event w =>
      simp only [hin] at h
      exact .inr (.inr ⟨w, rest, rfl, h⟩)

/-- Settles O59: a step waits, takes a reset, or runs an instruction, and each keeps the invariant. -/
theorem stepKeepsTheInvariant : Obligations.StepKeepsTheInvariant := by
  intro s t hinv hstep
  obtain ⟨_, rfl⟩ | ⟨rest, _, rfl⟩ | ⟨w, rest, _, hexec⟩ := step_next hstep
  · exact hinv
  · exact State.takeReset_inv _
  · exact exec_keeps_inv (hinv.keepInterface rest s.output s.draws) hexec

/-- Settles O58: the state after reset is a cleared IDLE. -/
theorem resetMeetsTheInvariant : Obligations.ResetMeetsTheInvariant := State.takeReset_inv State.reset

end Sys2Proof.Machine

namespace Sys2Proof.Machine

open Sys2Proof

/-! CERTIFICATE. The receive position, the writer of `EID`, the stops, and the definitions. -/

/-! ### The receive position -/

/-- Settles O27: RX_BYTE moves the position by the saturating sum of 10_state.md R31. -/
theorem receivePositionSaturates : Obligations.ReceivePositionSaturates := by
  intro s b hf hst
  refine ⟨_, rxByte_receiving Config.params b hf hst, sat16_succ s.rxPos, ?_, by simp⟩
  have hpos := s.rxPos.isLt
  simp only [sat16_toNat]
  omega

/-! ### `EID` -/

theorem subCtxOf_eq_control {msgType : Byte} (h : subCtxOf msgType = .control) : msgType = 0x00#8 := by
  unfold subCtxOf at h
  split at h
  · assumption
  · split at h <;> cases h

theorem processRequest_eid (p : Params) (kind : ReplyKind) (s : State) :
    (processRequest p kind s).eid = s.eid := by
  by_cases hk : kind = .none
  · subst hk; rfl
  · rw [processRequest_reply p hk]

/-- No grant writes `EID`: a reply only reads it (10_state.md R28). -/
theorem grant_eid {p : Params} {kind : ReplyKind} {s t : State} (h : grant p kind s = .next t) :
    t.eid = s.eid := by
  obtain ⟨_, rfl⟩ | ⟨_, _, rfl⟩ | ⟨_, _, _, rfl⟩ | ⟨_, _, _, rfl⟩ := grant_next h
  case inr.inr.inr => exact processRequest_eid p kind _
  all_goals rfl

theorem startWrite_eid {s t : State} (h : execStartWrite s = .next t) : t.eid = s.eid := by
  obtain ⟨_, rfl⟩ | ⟨_, _, rfl⟩ | ⟨_, _, rfl⟩ := startWrite_next h <;> rfl

theorem startRead_eid {s t : State} (h : execStartRead s = .next t) : t.eid = s.eid := by
  obtain ⟨_, rfl⟩ | ⟨_, _, rfl⟩ | ⟨_, _, rfl⟩ := startRead_next h <;> rfl

theorem nack_eid {s t : State} (h : execNack s = .next t) : t.eid = s.eid := by
  obtain ⟨_, rfl⟩ | ⟨_, _, rfl⟩ | ⟨_, _, rfl⟩ | ⟨_, _, rfl⟩ := nack_next h <;> rfl

theorem readReq_eid {s t : State} (h : execReadReq s = .next t) : t.eid = s.eid := by
  obtain ⟨_, rfl⟩ | ⟨_, _, rfl⟩ | ⟨_, _, rfl⟩ := readReq_next h <;> rfl

theorem txAck_eid {p : Params} {s t : State} (h : txAck p s = .next t) : t.eid = s.eid := by
  obtain ⟨_, rfl⟩ | ⟨_, _, rfl⟩ | ⟨_, _, _, _, _, rfl⟩ | ⟨_, _, _, rfl⟩ | ⟨_, _, _, _, _, rfl⟩ :=
    txAck_next h <;> rfl

/-- RX_BYTE writes `EID` only by the immediate commit, and the byte it takes (42_control_commands.md R171). -/
theorem rxByte_writes_eid {p : Params} {b : Byte} {s t : State} (h : rxByte p b s = .next t)
    (hne : t.eid ≠ s.eid) :
    s.fault = false ∧ s.st = .rx ∧ CommitsNow p s.rxPos.toNat s ∧ t.eid = b := by
  obtain ⟨_, rfl⟩ | ⟨hf, hst, rfl⟩ | ⟨_, _, rfl⟩ := rxByte_next h
  · exact absurd rfl hne
  · obtain ⟨hnow, hb⟩ | ⟨_, hkeep⟩ := capture_eid p s.rxPos.toNat b { s with rxCrc := crc8Update s.rxCrc b }
    · exact ⟨hf, hst, hnow, hb⟩
    · exact absurd hkeep hne
  · exact absurd rfl hne

/-- FINISH writes `EID` only by the commit at FINISH, and `CTL_ARG1` (42_control_commands.md R172). -/
theorem finish_writes_eid {p : Params} {s t : State} (h : finish p s = .next t) (hne : t.eid ≠ s.eid) :
    s.fault = false ∧ s.st = .rx ∧ p.eidCommit = .atFinish ∧ s.ctx.subCtx = .control ∧
      s.ctx.ctlCmd = 0x01#8 ∧ s.ctx.arg1Seen = true ∧ t.eid = s.ctx.ctlArg1 := by
  obtain ⟨_, rfl⟩ | ⟨hf, hst, rfl⟩ | ⟨_, _, rfl⟩ | ⟨_, _, rfl⟩ := finish_next h
  · exact absurd rfl hne
  · simp only [finishEid] at hne ⊢
    split at hne
    · next hcommit =>
      obtain ⟨hp, hsub, hcmd, hseen⟩ := hcommit
      exact ⟨hf, hst, hp, hsub, hcmd, hseen, if_pos ⟨hp, hsub, hcmd, hseen⟩⟩
    · exact absurd rfl hne
  · exact absurd rfl hne
  · exact absurd rfl hne

/-- Settles O51: of all instructions only RX_BYTE and FINISH write `EID`, each by its own commit. -/
theorem onlySetEidWritesEid : Obligations.OnlySetEidWritesEid := by
  intro i s t hexec hne
  induction i using instr_grant_or_event with
  | grant i hi =>
    rw [exec_grant hi] at hexec
    exact absurd (grant_eid hexec) hne
  | rxByte b =>
    obtain ⟨hf, hst, ⟨hp, hpos, hsub, hcmd⟩, hb⟩ := rxByte_writes_eid hexec hne
    exact ⟨hf, hst, subCtxOf_eq_control hsub, hcmd,
      .inl ⟨hp, BitVec.eq_of_toNat_eq hpos, congrArg Instr.rxByte hb.symm⟩⟩
  | finish =>
    obtain ⟨hf, hst, hp, hsub, hcmd, hseen, harg⟩ := finish_writes_eid hexec hne
    exact ⟨hf, hst, subCtxOf_eq_control hsub, hcmd, .inr ⟨hp, rfl, hseen, harg⟩⟩
  | startWrite => exact absurd (startWrite_eid hexec) hne
  | nack => exact absurd (nack_eid hexec) hne
  | startRead => exact absurd (startRead_eid hexec) hne
  | readReq => exact absurd (readReq_eid hexec) hne
  | txAck => exact absurd (txAck_eid hexec) hne

/-! ### Which states an instruction stops in -/

section
variable {s : State}

theorem grant_answers (p : Params) (kind : ReplyKind) (s : State) : ∃ t, grant p kind s = .next t :=
  guarded_answers fun _ => by
    split
    · dsimp only
      split <;> exact ⟨_, rfl⟩
    · exact ⟨_, rfl⟩

theorem rxByte_answers (p : Params) (b : Byte) (s : State) : ∃ t, rxByte p b s = .next t :=
  guarded_answers fun _ => by split_ifs <;> exact ⟨_, rfl⟩

theorem readReq_answers (s : State) : ∃ t, execReadReq s = .next t :=
  guarded_answers fun _ => by split_ifs <;> exact ⟨_, rfl⟩

theorem startWrite_answers (hst : s.st ≠ .startSend) : ∃ t, execStartWrite s = .next t :=
  guarded_answers fun _ => by
    cases hs : s.st with
    | startSend => exact absurd hs hst
    | _ => exact ⟨_, rfl⟩

theorem startRead_answers (hst : s.st ≠ .startSend) : ∃ t, execStartRead s = .next t :=
  guarded_answers fun _ => by
    cases hs : s.st with
    | startSend => exact absurd hs hst
    | _ => exact ⟨_, rfl⟩

theorem finish_answers (p : Params) (hst : s.st ≠ .startSend) : ∃ t, finish p s = .next t :=
  guarded_answers fun _ => by
    cases hs : s.st with
    | startSend => exact absurd hs hst
    | _ => exact ⟨_, rfl⟩

theorem nack_answers (hst : s.st ≠ .startSend) : ∃ t, execNack s = .next t :=
  guarded_answers fun _ => by
    cases hs : s.st with
    | startSend => exact absurd hs hst
    | _ => exact ⟨_, rfl⟩

/-- Each position a reply reaches is a slot: of the image, of the PEC or of the terminator
(44_responder.md R235–R238). -/
theorem ackStep_answers (h : ReplyInProgress s) : ∃ t, ackStep Config.params s = .next t := by
  have hlast := h.last
  unfold ackStep
  split
  · next hlt =>
    have hindex : s.txPos.toNat < (s.image Config.params).length := h.length ▸ hlt
    simp only [dataSlot, List.getElem?_eq_getElem hindex]
    exact ⟨_, rfl⟩
  · split
    · exact ⟨_, rfl⟩
    · next hlt hne =>
      have hend : s.txPos = s.txLen + 1 := by bv_omega
      exact ⟨_, if_pos hend⟩

theorem txAck_answers (h : s.st = .ack → ReplyInProgress s) : ∃ t, txAck Config.params s = .next t :=
  guarded_answers fun _ => by
    split
    · next hst => exact ackStep_answers (h hst)
    · exact ⟨_, rfl⟩

end

/-- Settles O57: the invariant rules out START_SEND and every position without a slot. -/
theorem nothingStopsUnderTheInvariant : Obligations.NothingStopsUnderTheInvariant := by
  intro i s hinv
  have hst := hinv.notStartSend
  induction i using instr_grant_or_event with
  | grant i hi => rw [exec_grant hi]; exact grant_answers _ _ s
  | startWrite => exact startWrite_answers hst
  | rxByte b => exact rxByte_answers _ b s
  | finish => exact finish_answers _ hst
  | nack => exact nack_answers hst
  | startRead => exact startRead_answers hst
  | readReq => exact readReq_answers s
  | txAck => exact txAck_answers hinv.sending

section
variable {s : State}

/-- The four events whose case tables do not list START_SEND stop in it (notes/assumptions/9.md). -/
theorem exec_startSendHeld (hf : s.fault = false) (hst : s.st = .startSend) {i : Instr}
    (hi : i ∈ [Instr.startWrite, .finish, .nack, .startRead]) : exec i s = .fault .startSendHeld := by
  simp only [List.mem_cons, List.not_mem_nil, or_false] at hi
  obtain rfl | rfl | rfl | rfl := hi <;> exact (guarded_sound hf _).trans (by rw [hst])

theorem ackStep_slotPastTerminator (p : Params) (h : s.txLen.toNat + 1 < s.txPos.toNat) :
    ackStep p s = .fault .slotPastTerminator := by
  have hdata : ¬ s.txPos < s.txLen := by bv_omega
  have hpec : s.txPos ≠ s.txLen := by bv_omega
  have hend : s.txPos ≠ s.txLen + 1 := by bv_omega
  rw [ackStep, if_neg hdata, if_neg hpec, if_neg hend]

theorem ackStep_imageIndexOutside (p : Params) (hlt : s.txPos.toNat < s.txLen.toNat)
    (himage : (s.image p).length ≤ s.txPos.toNat) : ackStep p s = .fault .imageIndexOutside := by
  rw [ackStep, if_pos (show s.txPos < s.txLen from hlt), dataSlot, List.getElem?_eq_none himage]

end

/-- Settles O13: one rule for the four events, one for each of the two slots TX_ACK does not have. -/
theorem unreachedStatesStopByName : Obligations.UnreachedStatesStopByName := by
  intro s hf
  refine ⟨fun hst i hi => exec_startSendHeld hf hst hi, fun hst hpast => ?_, fun hst hlt himage => ?_⟩
  · exact (txAck_sending _ hf hst).trans (ackStep_slotPastTerminator _ hpast)
  · exact (txAck_sending _ hf hst).trans (ackStep_imageIndexOutside _ hlt himage)

/-! ### What holds by the definitions -/

/-- Settles O5: each table of numbers, evaluated. -/
theorem enumerationValues : Obligations.EnumerationValues :=
  ⟨rfl, rfl, rfl, fun _ _ => rfl⟩

/-- Settles O14: `ClearCtx()` is this one update of the state (10_state.md R21). -/
theorem clearCtxWritesExactlyTheTransaction : Obligations.ClearCtxWritesExactlyTheTransaction :=
  fun _ => rfl

end Sys2Proof.Machine

namespace Sys2Proof.Machine

open Sys2Proof

/-! CERTIFICATE. Memory and outputs (20_memory.md): the send buffer's frame, the output stream, and the balance
of the bus. -/

/-! ### What an instruction stores (20_memory.md R62) -/

section
variable {s : State}

/-- A grant that starts a reply stores the address byte at index 0 (44_responder.md R234). -/
theorem storeIndex_of_reply (hf : s.fault = false) {i : Instr} (hi : i.isGrant = true)
    (hb : s.busReq = true) (hst : s.st = .processRequest) (hk : servedKind i s ≠ .none) :
    storeIndex i s = some 0 := by
  simp [storeIndex, hf, hi, hb, hst, hk]

/-- A data slot stores at `TX_POS` (44_responder.md R236). -/
theorem storeIndex_of_dataSlot (hf : s.fault = false) (hst : s.st = .ack) (hlt : s.txPos < s.txLen) :
    storeIndex .txAck s = some s.txPos.toNat := by
  simp [storeIndex, hf, hst, hlt, Instr.isGrant, Instr.isEvent]

end

section
variable {s t : State}

theorem startWrite_sendbuf (h : execStartWrite s = .next t) : t.sendbuf = s.sendbuf := by
  obtain ⟨_, rfl⟩ | ⟨_, _, rfl⟩ | ⟨_, _, rfl⟩ := startWrite_next h <;> rfl

theorem startRead_sendbuf (h : execStartRead s = .next t) : t.sendbuf = s.sendbuf := by
  obtain ⟨_, rfl⟩ | ⟨_, _, rfl⟩ | ⟨_, _, rfl⟩ := startRead_next h <;> rfl

theorem rxByte_sendbuf {p : Params} {b : Byte} (h : rxByte p b s = .next t) : t.sendbuf = s.sendbuf := by
  obtain ⟨_, rfl⟩ | ⟨_, _, rfl⟩ | ⟨_, _, rfl⟩ := rxByte_next h
  · rfl
  · exact capture_sendbuf p _ b _
  · rfl

theorem finish_sendbuf {p : Params} (h : finish p s = .next t) : t.sendbuf = s.sendbuf := by
  obtain ⟨_, rfl⟩ | ⟨_, _, rfl⟩ | ⟨_, _, rfl⟩ | ⟨_, _, rfl⟩ := finish_next h <;> rfl

theorem nack_sendbuf (h : execNack s = .next t) : t.sendbuf = s.sendbuf := by
  obtain ⟨_, rfl⟩ | ⟨_, _, rfl⟩ | ⟨_, _, rfl⟩ | ⟨_, _, rfl⟩ := nack_next h <;> rfl

theorem readReq_sendbuf (h : execReadReq s = .next t) : t.sendbuf = s.sendbuf := by
  obtain ⟨_, rfl⟩ | ⟨_, _, rfl⟩ | ⟨_, _, rfl⟩ := readReq_next h <;> rfl

/-- A grant leaves the send buffer or starts a reply, which stores at index 0 (44_responder.md R233, R234). -/
theorem grant_sendbuf {p : Params} {kind : ReplyKind} (h : grant p kind s = .next t) :
    t.sendbuf = s.sendbuf ∨
    (s.fault = false ∧ s.busReq = true ∧ s.st = .processRequest ∧ kind ≠ .none ∧
      ∃ b, t.sendbuf = s.sendbuf.write 0 b) := by
  obtain ⟨_, rfl⟩ | ⟨_, _, rfl⟩ | ⟨_, _, _, rfl⟩ | ⟨hf, hb, hst, rfl⟩ := grant_next h
  · exact .inl rfl
  · exact .inl rfl
  · exact .inl rfl
  · by_cases hk : kind = .none
    · subst hk
      exact .inl rfl
    · rw [processRequest_reply p hk]
      exact .inr ⟨hf, hb, hst, hk, _, rfl⟩

/-- TX_ACK leaves the send buffer or runs a data slot, which stores at `TX_POS`; the PEC is sent and not stored
(44_responder.md R236–R238). -/
theorem txAck_sendbuf {p : Params} (h : txAck p s = .next t) :
    t.sendbuf = s.sendbuf ∨
    (s.fault = false ∧ s.st = .ack ∧ s.txPos < s.txLen ∧
      ∃ b, t.sendbuf = s.sendbuf.write s.txPos.toNat b) := by
  obtain ⟨_, rfl⟩ | ⟨_, _, rfl⟩ | ⟨hf, hst, hlt, b, _, rfl⟩ | ⟨_, _, _, rfl⟩ | ⟨_, _, _, _, _, rfl⟩ :=
    txAck_next h
  · exact .inl rfl
  · exact .inl rfl
  · exact .inr ⟨hf, hst, hlt, b, rfl⟩
  · exact .inl rfl
  · exact .inl rfl

/-- All that an instruction can do to the send buffer: leave it, or store one byte at its store index. -/
theorem exec_sendbuf {i : Instr} (h : exec i s = .next t) :
    t.sendbuf = s.sendbuf ∨ ∃ k b, storeIndex i s = some k ∧ t.sendbuf = s.sendbuf.write k b := by
  induction i using instr_grant_or_event with
  | grant i hi =>
    rw [exec_grant hi] at h
    obtain hsame | ⟨hf, hb, hst, hk, b, hstore⟩ := grant_sendbuf h
    · exact .inl hsame
    · exact .inr ⟨0, b, storeIndex_of_reply hf hi hb hst hk, hstore⟩
  | txAck =>
    obtain hsame | ⟨hf, hst, hlt, b, hstore⟩ := txAck_sendbuf h
    · exact .inl hsame
    · exact .inr ⟨_, b, storeIndex_of_dataSlot hf hst hlt, hstore⟩
  | startWrite => exact .inl (startWrite_sendbuf h)
  | rxByte b => exact .inl (rxByte_sendbuf h)
  | finish => exact .inl (finish_sendbuf h)
  | nack => exact .inl (nack_sendbuf h)
  | startRead => exact .inl (startRead_sendbuf h)
  | readReq => exact .inl (readReq_sendbuf h)

end

/-- Settles O52: the one byte an instruction stores is at its store index, and a write leaves every other index. -/
theorem sendBufferFrame : Obligations.SendBufferFrame := by
  intro i s t hexec a ha
  obtain hsame | ⟨k, b, hk, hstore⟩ := exec_sendbuf hexec
  · rw [hsame]
  · have hne : a ≠ k := fun hak => ha (hak ▸ hk)
    rw [hstore, read_write_other hne]

/-! ### What an instruction emits (20_memory.md R71, R73) -/

/-- `t` is `s` after emitting `acts`, at most two actions: the old outputs stand before them, what is to be
delivered is kept, and the bus requests among `acts` and those `s` has open (outstanding or held for a reply) are
the releases among `acts` and those `t` has open. -/
structure Emits (s : State) (acts : List Action) (t : State) : Prop where
  few : acts.length ≤ 2
  input : t.input = s.input
  output : t.output = s.output ++ acts
  bus : countAction .reqBus acts + (s.busReq.toNat + s.st.grantsHeld) =
    countAction .busRelease acts + (t.busReq.toNat + t.st.grantsHeld)

theorem countAction_append (a : Action) (out acts : List Action) :
    countAction a (out ++ acts) = countAction a out + countAction a acts :=
  List.countP_append

/-- Only a reply in ACK holds a granted request (41_ingestion.md R142). -/
theorem St.grantsHeld_of_ne_ack {st : St} (h : st ≠ .ack) : st.grantsHeld = 0 := by
  cases st with
  | ack => exact absurd rfl h
  | _ => rfl

section
variable {s t : State}

/-- A balance of the bus survives what is emitted with its requests and releases accounted for. -/
theorem Emits.keeps_balance {acts : List Action} (h : Emits s acts t) (hs : busBalanced s) : busBalanced t := by
  have hbus := h.bus
  unfold busBalanced at hs ⊢
  rw [h.output, countAction_append, countAction_append]
  omega

/-- Nothing is emitted where the four fields that `Emits` reads stay, as in a faulted block or when a fault is
raised (60_exceptions.md R264). -/
theorem Emits.nothing (hinput : t.input = s.input) (houtput : t.output = s.output)
    (hreq : t.busReq = s.busReq) (hheld : t.st.grantsHeld = s.st.grantsHeld) : Emits s [] t where
  few := Nat.zero_le 2
  input := hinput
  output := houtput.trans (List.append_nil _).symm
  bus := by rw [hreq, hheld]; rfl

theorem Emits.refl (s : State) : Emits s [] s := .nothing rfl rfl rfl rfl

theorem Emits.raiseFault (s : State) (code : FaultCode) : Emits s [] (s.raiseFault code) :=
  .nothing rfl rfl rfl rfl

/-- Outside a reply a change of `ST` alone moves no request (41_ingestion.md R144). -/
theorem Emits.outsideReply (hs : s.st ≠ .ack) (ht : t.st ≠ .ack) (hinput : t.input = s.input)
    (houtput : t.output = s.output) (hreq : t.busReq = s.busReq) : Emits s [] t :=
  .nothing hinput houtput hreq ((St.grantsHeld_of_ne_ack ht).trans (St.grantsHeld_of_ne_ack hs).symm)

/-- A reply in ACK that ends gives up the bus it holds, by its terminator slot or by NACK (44_responder.md R238,
41_ingestion.md R141). -/
theorem Emits.replyEnded (hst : s.st = .ack) :
    Emits s [.txEnd, .busRelease] ((s.emit .txEnd).emit .busRelease).endTransaction where
  few := Nat.le_refl 2
  input := rfl
  output := by simp
  bus := by simp [hst, countAction, St.grantsHeld, Nat.add_comm]

/-- A served request trades the outstanding request for a release, or for the reply that holds the bus
(44_responder.md R233, R234). -/
theorem processRequest_emits (p : Params) (kind : ReplyKind) (hb : s.busReq = true)
    (hst : s.st = .processRequest) :
    ∃ acts, Emits s acts (processRequest p kind { s with busReq := false }) := by
  by_cases hk : kind = .none
  · subst hk
    exact ⟨[.busRelease], Nat.le_succ 1, rfl, rfl, by rw [hb, hst]; rfl⟩
  · rw [processRequest_reply p hk]
    exact ⟨[.txStart s.ctx.reqAddr7], Nat.le_succ 1, rfl, rfl, by rw [hb, hst]; rfl⟩

theorem grant_emits {p : Params} {kind : ReplyKind} (h : grant p kind s = .next t) :
    ∃ acts, Emits s acts t := by
  obtain ⟨_, rfl⟩ | ⟨_, _, rfl⟩ | ⟨_, hb, _, rfl⟩ | ⟨_, hb, hst, rfl⟩ := grant_next h
  · exact ⟨[], .refl _⟩
  · exact ⟨[], .raiseFault _ _⟩
  · exact ⟨[.busRelease], Nat.le_succ 1, rfl, rfl, by simp [hb, countAction]⟩
  · exact processRequest_emits p kind hb hst

theorem startWrite_emits (h : execStartWrite s = .next t) : ∃ acts, Emits s acts t := by
  obtain ⟨_, rfl⟩ | ⟨_, hst, rfl⟩ | ⟨_, _, rfl⟩ := startWrite_next h
  · exact ⟨[], .refl _⟩
  · exact ⟨[], .outsideReply (by rintro heq; simp [heq] at hst) (by simp) rfl rfl rfl⟩
  · exact ⟨[], .raiseFault _ _⟩

theorem startRead_emits (h : execStartRead s = .next t) : ∃ acts, Emits s acts t := by
  obtain ⟨_, rfl⟩ | ⟨_, hst, rfl⟩ | ⟨_, _, rfl⟩ := startRead_next h
  · exact ⟨[], .refl _⟩
  · exact ⟨[], .outsideReply (by rintro heq; simp [heq] at hst) (by simp) rfl rfl rfl⟩
  · exact ⟨[], .raiseFault _ _⟩

theorem rxByte_emits {p : Params} {b : Byte} (h : rxByte p b s = .next t) : ∃ acts, Emits s acts t := by
  obtain ⟨_, rfl⟩ | ⟨_, _, rfl⟩ | ⟨_, _, rfl⟩ := rxByte_next h
  · exact ⟨[], .refl _⟩
  · exact ⟨[], .nothing (by simp) (by simp) (by simp) (by simp)⟩
  · exact ⟨[], .raiseFault _ _⟩

/-- FINISH asks for the bus unless a request is outstanding already (41_ingestion.md R139). -/
theorem finish_emits {p : Params} (h : finish p s = .next t) : ∃ acts, Emits s acts t := by
  obtain ⟨_, rfl⟩ | ⟨_, hst, rfl⟩ | ⟨_, hst, rfl⟩ | ⟨_, _, rfl⟩ := finish_next h
  · exact ⟨[], .refl _⟩
  · cases hb : s.busReq with
    | true => exact ⟨[], .outsideReply (by simp [hst]) (by simp) rfl rfl hb.symm⟩
    | false => exact ⟨[.reqBus], Nat.le_succ 1, rfl, rfl, by rw [hb, hst]; rfl⟩
  · exact ⟨[], .outsideReply (by rintro heq; simp [heq] at hst) (by simp) rfl rfl rfl⟩
  · exact ⟨[], .raiseFault _ _⟩

theorem nack_emits (h : execNack s = .next t) : ∃ acts, Emits s acts t := by
  obtain ⟨_, rfl⟩ | ⟨_, _, rfl⟩ | ⟨_, hst, rfl⟩ | ⟨_, hst, rfl⟩ := nack_next h
  · exact ⟨[], .refl _⟩
  · exact ⟨[], .refl _⟩
  · exact ⟨[], .outsideReply (by rintro heq; simp [heq] at hst) (by simp) rfl rfl rfl⟩
  · exact ⟨_, .replyEnded hst⟩

theorem readReq_emits (h : execReadReq s = .next t) : ∃ acts, Emits s acts t := by
  obtain ⟨_, rfl⟩ | ⟨_, _, rfl⟩ | ⟨_, _, rfl⟩ := readReq_next h
  · exact ⟨[], .refl _⟩
  · exact ⟨[.readData (Config.readData s.draws)], Nat.le_succ 1, rfl, rfl, rfl⟩
  · exact ⟨[], .raiseFault _ _⟩

theorem txAck_emits {p : Params} (h : txAck p s = .next t) : ∃ acts, Emits s acts t := by
  obtain ⟨_, rfl⟩ | ⟨_, _, rfl⟩ | ⟨_, _, _, b, _, rfl⟩ | ⟨_, _, _, rfl⟩ | ⟨_, hst, _, _, _, rfl⟩ :=
    txAck_next h
  · exact ⟨[], .refl _⟩
  · exact ⟨[], .raiseFault _ _⟩
  · exact ⟨[.txByte b], Nat.le_succ 1, rfl, rfl, rfl⟩
  · exact ⟨[.txByte _], Nat.le_succ 1, rfl, rfl, rfl⟩
  · exact ⟨_, .replyEnded hst⟩

/-- All that an instruction can do to the outputs, to what is still to be delivered and to the bus. -/
theorem exec_emits {i : Instr} (h : exec i s = .next t) : ∃ acts, Emits s acts t := by
  induction i using instr_grant_or_event with
  | grant i hi => rw [exec_grant hi] at h; exact grant_emits h
  | startWrite => exact startWrite_emits h
  | rxByte b => exact rxByte_emits h
  | finish => exact finish_emits h
  | nack => exact nack_emits h
  | startRead => exact startRead_emits h
  | readReq => exact readReq_emits h
  | txAck => exact txAck_emits h

end

/-- Settles O53: what an instruction emits stands after the old outputs. -/
theorem outputsAreAppended : Obligations.OutputsAreAppended := by
  intro i s t hexec
  obtain ⟨acts, hemits⟩ := exec_emits hexec
  exact ⟨hemits.input, acts, hemits.few, hemits.output⟩

/-- Settles O56: each instruction's requests and releases are accounted for in `BUS_REQ` and ACK. -/
theorem busBalanceIsKept : Obligations.BusBalanceIsKept := by
  intro i s t hbal hexec
  obtain ⟨acts, hemits⟩ := exec_emits hexec
  exact hemits.keeps_balance hbal

end Sys2Proof.Machine

namespace Sys2Proof

/-! CERTIFICATE. Encoding (30_encoding.md R81, R92, R93): decoding undoes encoding, every key is the word of its
row, and the key of a Frame Context selects the row of its command. -/

/-! ### Which low bits and message types a supported row takes -/

theorem supportedControlLow_iff {low : BitVec 16} : supportedControlLow low = true ↔
    low = 0x0001#16 ∨ low = 0x0002#16 ∨ low = 0x0003#16 ∨ low = 0x0004#16 ∨ low = 0x0005#16 ∨
      low = 0x0006#16 := by
  simp only [supportedControlLow, decide_eq_true_eq, ← BitVec.toNat_inj, BitVec.reduceToNat]
  omega

theorem supportedFmLow_iff {low : BitVec 16} : supportedFmLow low = true ↔
    low = 0x5100#16 ∨ low = 0x5101#16 ∨ low = 0x5102#16 ∨ low = 0x5103#16 := by
  simp only [supportedFmLow, decide_eq_true_eq, ← BitVec.toNat_inj, BitVec.reduceToNat]
  omega

theorem decodedMsgType_iff {mt : Byte} : decodedMsgType mt = true ↔ mt = 0x00#8 ∨ mt = 0x07#8 := by
  simp [decodedMsgType]

/-! ### The keys of the UNSUPPORTED rows -/

/-- A control key that no supported row takes is CTRL.UNSUPPORTED's, with its low bits. -/
theorem decodeKey_ctrlUnsupported {low : BitVec 16} (h : supportedControlLow low = false) :
    decodeKey (0x00#8 ++ low) = .ctrlUnsupported low := by
  rw [← Bool.not_eq_true, supportedControlLow_iff] at h
  simp only [not_or] at h
  simp [decodeKey_append, h]

/-- An FM-API key that no supported row takes is FM.UNSUPPORTED's, with its low bits. -/
theorem decodeKey_fmUnsupported {low : BitVec 16} (h : supportedFmLow low = false) :
    decodeKey (0x07#8 ++ low) = .fmUnsupported low := by
  rw [← Bool.not_eq_true, supportedFmLow_iff] at h
  simp only [not_or] at h
  simp [decodeKey_append, h]

/-- A key of any other message type is MSG.UNSUPPORTED's, whole. -/
theorem decodeKey_msgUnsupported {mt : Byte} (low : BitVec 16) (h : decodedMsgType mt = false) :
    decodeKey (mt ++ low) = .msgUnsupported (mt ++ low) := by
  rw [← Bool.not_eq_true, decodedMsgType_iff] at h
  simp only [not_or] at h
  simp [decodeKey_append, h]

/-! ### Decoding and encoding -/

/-- The data byte of RX_BYTE comes back. -/
theorem decodeEvent_rxByte (b : Byte) : decodeEvent (eventWord 1#3 b) = .rxByte b := by
  simp [decodeEvent]

/-- Settles O1: the words without an operand are evaluated; RX_BYTE keeps its data byte, and well-formedness
keeps the keys of the three UNSUPPORTED rows clear of the rows before them. -/
theorem decodeEncodeRoundTrip : Obligations.DecodeEncodeRoundTrip := by
  intro i hwf
  cases i with
  | rxByte b => exact decodeEvent_rxByte b
  | ctrlUnsupported low => exact decodeKey_ctrlUnsupported (Bool.not_eq_true' _ |>.mp hwf)
  | fmUnsupported low => exact decodeKey_fmUnsupported (Bool.not_eq_true' _ |>.mp hwf)
  | msgUnsupported key =>
    have h := decodeKey_msgUnsupported (key.extractLsb' 0 16) (Bool.not_eq_true' _ |>.mp hwf)
    rwa [key_split] at h
  | _ => rfl

/-- Settles O2: a key is a supported row's constant or lies with the UNSUPPORTED row of its message type. -/
theorem everyKeyHasItsRow : Obligations.EveryKeyHasItsRow := by
  intro k
  rw [← key_split k]
  generalize k.extractLsb' 16 8 = mt, k.extractLsb' 0 16 = low
  cases ht : decodedMsgType mt with
  | false =>
    rw [decodeKey_msgUnsupported low ht]
    exact ⟨by simp [Instr.wf, ht], rfl, rfl⟩
  | true =>
    obtain rfl | rfl := decodedMsgType_iff.mp ht
    · cases hs : supportedControlLow low with
      | false =>
        rw [decodeKey_ctrlUnsupported hs]
        exact ⟨by simp [Instr.wf, hs], rfl, rfl⟩
      | true =>
        obtain rfl | rfl | rfl | rfl | rfl | rfl := supportedControlLow_iff.mp hs <;> exact ⟨rfl, rfl, rfl⟩
    · cases hs : supportedFmLow low with
      | false =>
        rw [decodeKey_fmUnsupported hs]
        exact ⟨by simp [Instr.wf, hs], rfl, rfl⟩
      | true =>
        obtain rfl | rfl | rfl | rfl := supportedFmLow_iff.mp hs <;> exact ⟨rfl, rfl, rfl⟩

/-- Settles O3: each byte string, evaluated. -/
theorem writtenWordsDecode : Obligations.WrittenWordsDecode :=
  ⟨rfl, rfl, rfl, rfl, rfl, rfl, rfl, rfl, rfl⟩

end Sys2Proof

namespace Sys2Proof.Machine

open Sys2Proof

/-! CERTIFICATE. The row a Frame Context selects, and the step that runs a delivered event (30_encoding.md R80,
R92, R93). -/

/-! ### The key of a Frame Context -/

/-- Two pairs of bytes make the same low bits exactly where the bytes are the same. -/
theorem byte_append_inj (hi hi' lo lo' : Byte) :
    (hi ++ lo : BitVec 16) = hi' ++ lo' ↔ hi = hi' ∧ lo = lo' := by
  constructor
  · intro h
    have hhi := congrArg (BitVec.extractLsb' 8 8) h
    have hlo := congrArg (BitVec.extractLsb' 0 8) h
    simp only [BitVec.extractLsb'_append_eq_left, BitVec.extractLsb'_append_eq_right] at hhi hlo
    exact ⟨hhi, hlo⟩
  · rintro ⟨rfl, rfl⟩
    rfl

/-- The same against a written constant, given its two bytes. -/
theorem byte_append_eq_iff (v : BitVec 16) (hi' lo' : Byte) (hv : v = hi' ++ lo') (hi lo : Byte) :
    (hi ++ lo : BitVec 16) = v ↔ hi = hi' ∧ lo = lo' := by
  rw [hv, byte_append_inj]

/-- The three bytes of a key, as a message type before its low bits. -/
theorem key_of_bytes (mt hi lo : Byte) : (mt ++ hi ++ lo : Key) = mt ++ (hi ++ lo) :=
  BitVec.append_assoc

section
variable {c : Ctx}

theorem Ctx.key_of_control (h : c.msgType = 0x00#8) : c.key = 0x00#8 ++ (0x00#8 ++ c.ctlCmd) := by
  simp only [Ctx.key, Ctx.subCtx, subCtxOf, h, if_true]
  exact key_of_bytes ..

theorem Ctx.key_of_fmapi (h : c.msgType = 0x07#8) : c.key = 0x07#8 ++ (c.fmSet ++ c.fmCmd) := by
  simp only [Ctx.key, Ctx.subCtx, subCtxOf, h]
  exact key_of_bytes ..

theorem Ctx.key_of_other (h0 : c.msgType ≠ 0x00#8) (h7 : c.msgType ≠ 0x07#8) :
    c.key = c.msgType ++ (0x00#8 ++ 0x00#8) := by
  simp only [Ctx.key, Ctx.subCtx, subCtxOf, h0, h7, if_false]
  exact key_of_bytes ..

end

/-- Settles O4: each comparison of the low bits in the opcode map is one of the command set and the command. -/
theorem keySelectsTheRow : Obligations.KeySelectsTheRow := by
  intro c
  refine ⟨fun h0 => ?_, fun h7 => ?_, fun h0 h7 => ?_⟩
  · rw [Ctx.key_of_control h0, decodeKey_append, if_pos rfl]
    simp only [byte_append_eq_iff 0x0001#16 0x00#8 0x01#8 rfl, byte_append_eq_iff 0x0002#16 0x00#8 0x02#8 rfl,
      byte_append_eq_iff 0x0003#16 0x00#8 0x03#8 rfl, byte_append_eq_iff 0x0004#16 0x00#8 0x04#8 rfl,
      byte_append_eq_iff 0x0005#16 0x00#8 0x05#8 rfl, byte_append_eq_iff 0x0006#16 0x00#8 0x06#8 rfl, true_and]
  · rw [Ctx.key_of_fmapi h7, decodeKey_append, if_neg (by decide), if_pos rfl]
    simp only [byte_append_eq_iff 0x5100#16 0x51#8 0x00#8 rfl, byte_append_eq_iff 0x5101#16 0x51#8 0x01#8 rfl,
      byte_append_eq_iff 0x5102#16 0x51#8 0x02#8 rfl, byte_append_eq_iff 0x5103#16 0x51#8 0x03#8 rfl]
  · rw [Ctx.key_of_other h0 h7, decodeKey_append, if_neg h0, if_neg h7, ← key_of_bytes]

/-! ### The step that takes an event -/

theorem servedKind_of_request {i : Instr} (hi : i.isEvent = false) (s : State) :
    servedKind i s = rowReplyKind i := by
  rw [servedKind, if_neg]
  rintro rfl
  cases hi

/-- BUS_GRANT is the request row its key selects: both serve the same reply kind (41_ingestion.md R142). -/
theorem exec_busGrant_eq_row (s : State) : exec .busGrant s = exec (decodeKey s.ctx.key) s := by
  obtain ⟨_, hrow, _⟩ := everyKeyHasItsRow s.ctx.key
  have hgrant : (decodeKey s.ctx.key).isGrant = true := by simp [Instr.isGrant, hrow]
  rw [exec_grant hgrant, servedKind_of_request hrow]
  rfl

/-- Selecting the request row of a BUS_GRANT does not change what is run. -/
theorem exec_select (s : State) (i : Instr) : exec (s.select i) s = exec i s := by
  unfold State.select
  split
  · next h =>
    obtain ⟨rfl, _⟩ := h
    exact (exec_busGrant_eq_row s).symm
  · rfl

theorem step_event {s : State} {w : EventWord} {rest : List Stimulus} (h : s.input = .event w :: rest) :
    step s = exec (decodeEvent w) { s with input := rest } := by
  rw [← exec_select]
  simp only [step, State.fetch, h]

/-- Settles O6: the step runs what the event word decodes to, and BUS_GRANT is the row its key selects. -/
theorem stepRunsTheDecodedInstruction : Obligations.StepRunsTheDecodedInstruction := by
  rintro s w rest i hinput rfl -
  refine ⟨step_event hinput, fun hgrant _ => ?_⟩
  rw [step_event hinput, show decodeEvent w = .busGrant from hgrant]
  exact exec_busGrant_eq_row _

end Sys2Proof.Machine

namespace Sys2Proof.Machine

open Sys2Proof

/-! SUPPORT. The Frame Context a byte string stands for (30_encoding.md R84–R91), that capturing one more byte gives
the Frame Context of the longer string, and so the state that START_WRITE and the bytes leave. -/

/-! ### The Frame Context a byte string stands for -/

/-- The header registers hold the bytes of positions 0..7 (30_encoding.md R84), every other is clear. -/
def requestHeader (bytes : List Byte) : Ctx :=
  { Ctx.cleared with
    preamble := bytes.getD 0 0
    byteCount := bytes.getD 1 0
    srcAddr := bytes.getD 2 0
    hdrVer := bytes.getD 3 0
    dstEid := bytes.getD 4 0
    srcEid := bytes.getD 5 0
    tagByte := bytes.getD 6 0
    msgType := bytes.getD 7 0 }

/-- `CTX.CTL_ARG0` of a control request: position 10, where its command parses it (30_encoding.md R89). -/
def requestArg0 (bytes : List Byte) : Byte :=
  if bytes.getD 9 0 = 0x01#8 ∨ bytes.getD 9 0 = 0x04#8 ∨ bytes.getD 9 0 = 0x06#8 then bytes.getD 10 0 else 0

/-- `CTX.CTL_ARG1` of a control request: position 11 of Set Endpoint ID (42_control_commands.md R171). -/
def requestArg1 (bytes : List Byte) : Byte :=
  if bytes.getD 9 0 = 0x01#8 then bytes.getD 11 0 else 0

/-- `CTX.ARG1_SEEN` of a control request: whether Set Endpoint ID reached position 11. -/
def requestArg1Seen (bytes : List Byte) : Bool :=
  decide (bytes.getD 9 0 = 0x01#8 ∧ 12 ≤ bytes.length)

/-- The control request (30_encoding.md R89). -/
def requestControl (bytes : List Byte) : Ctx :=
  { requestHeader bytes with
    ctlFlags := bytes.getD 8 0
    ctlCmd := bytes.getD 9 0
    ctlArg0 := requestArg0 bytes
    ctlArg1 := requestArg1 bytes
    arg1Seen := requestArg1Seen bytes }

/-- Whether the bytes of an FM-API request name Get Physical Port State (43_fmapi_commands.md R200). -/
abbrev AsksPorts (bytes : List Byte) : Prop := bytes.getD 12 0 = 0x51#8 ∧ bytes.getD 11 0 = 0x01#8

/-- `CTX.FM_NPORTS` of an FM-API request: the clamped position 20 of Get Physical Port State
(43_fmapi_commands.md R210). -/
def requestCount (bytes : List Byte) : Byte :=
  if AsksPorts bytes then clampPorts (bytes.getD 20 0) else 0

/-- `CTX.PORTS` of a request for `count` ports: the positions from 21 on (43_fmapi_commands.md R211). -/
def requestPorts (count : Byte) (bytes : List Byte) : Vector Byte 10 :=
  Vector.ofFn fun i => if i.val < count.toNat then bytes.getD (21 + i.val) 0 else 0

/-- The FM-API request (30_encoding.md R90). -/
def requestFmApi (bytes : List Byte) : Ctx :=
  { requestHeader bytes with
    fmCategory := bytes.getD 8 0
    fmTag := bytes.getD 9 0
    fmCmd := bytes.getD 11 0
    fmSet := bytes.getD 12 0
    fmNports := requestCount bytes
    ports := requestPorts (requestCount bytes) bytes }

/-- The Frame Context after these bytes, by the message type among them (30_encoding.md R88). -/
def requestCtx (bytes : List Byte) : Ctx :=
  match subCtxOf (bytes.getD 7 0) with
  | .control => requestControl bytes
  | .fmapi => requestFmApi bytes
  | .none => requestHeader bytes

theorem requestCtx_msgType (bytes : List Byte) : (requestCtx bytes).msgType = bytes.getD 7 0 := by
  unfold requestCtx
  split <;> rfl

/-! ### A byte string that has not reached a register's position -/

section
variable {bytes : List Byte} {k : Nat}

theorem requestCount_of_short (h : bytes.length ≤ 20) : requestCount bytes = 0 := by
  rw [requestCount, List.getD_eq_default _ _ h]
  exact ite_self _

theorem requestPorts_of_short (count : Byte) (h : bytes.length ≤ 21) :
    requestPorts count bytes = Vector.replicate 10 0 := by
  apply Vector.ext
  intro i hi
  rw [requestPorts, Vector.getElem_ofFn, Vector.getElem_replicate, List.getD_eq_default _ _ (by omega)]
  exact ite_self _

theorem requestPorts_zero (bytes : List Byte) : requestPorts 0 bytes = Vector.replicate 10 0 := by
  apply Vector.ext
  intro i hi
  rw [requestPorts, Vector.getElem_ofFn, Vector.getElem_replicate]
  exact if_neg (Nat.not_lt_zero i)

/-- Up to position 7 no message type is in effect: only the header registers are written. -/
theorem requestCtx_of_short (h : bytes.length ≤ 8) : requestCtx bytes = requestHeader bytes := by
  have absent {k : Nat} (hk : 8 ≤ k) : bytes.getD k 0 = 0 := List.getD_eq_default _ _ (h.trans hk)
  unfold requestCtx
  split
  · have hseen : ¬ 12 ≤ bytes.length := by omega
    simp only [requestControl, requestArg0, requestArg1, requestArg1Seen, absent, Nat.reduceLeDiff, ite_self,
      hseen, and_false]
    rfl
  · rw [requestFmApi, requestCount_of_short (by omega), requestPorts_zero]
    simp only [absent, Nat.reduceLeDiff]
    rfl
  · rfl

/-! ### One more byte -/

/-- The byte at a position, after one more byte has come. -/
theorem getD_concat (bytes : List Byte) (b : Byte) (k : Nat) :
    (bytes ++ [b]).getD k 0 = if bytes.length = k then b else bytes.getD k 0 := by
  obtain hlt | rfl | hgt := Nat.lt_trichotomy k bytes.length
  · rw [List.getD_append _ _ _ _ hlt, if_neg hlt.ne']
  · rw [List.getD_append_right _ _ _ _ le_rfl, if_pos rfl, Nat.sub_self, List.getD_cons_zero]
  · rw [if_neg hgt.ne, List.getD_eq_default _ _ hgt.le, List.getD_eq_default]
    rw [List.length_append, List.length_singleton]
    exact hgt

theorem getD_concat_of_lt (h : k < bytes.length) (b : Byte) : (bytes ++ [b]).getD k 0 = bytes.getD k 0 :=
  List.getD_append _ _ _ _ h

/-- A register parsed at position `k` under a condition `C` on earlier bytes, which is `C'` after one more. -/
theorem parsed_concat {α : Type} {C C' : Prop} [Decidable C] [Decidable C'] (f : Byte → α) (b : Byte)
    (hC : k ≤ bytes.length → (C' ↔ C)) :
    (if C' then f ((bytes ++ [b]).getD k 0) else f 0) =
      if bytes.length = k ∧ C then f b else if C then f (bytes.getD k 0) else f 0 := by
  rw [getD_concat]
  by_cases hk : k ≤ bytes.length
  · by_cases hc : C
    · simp only [hC hk, hc, and_true, if_true, apply_ite f]
    · simp only [hC hk, hc, and_false, if_false]
  · have hne : bytes.length ≠ k := by omega
    rw [List.getD_eq_default bytes _ (by omega)]
    simp only [hne, false_and, if_false, ite_self]

theorem requestHeader_concat (bytes : List Byte) (b : Byte) :
    requestHeader (bytes ++ [b]) = captureHeader bytes.length b (requestHeader bytes) := by
  rw [captureHeader_eq]
  simp only [requestHeader, getD_concat]

theorem requestHeader_concat_of_body (h : 8 ≤ bytes.length) (b : Byte) :
    requestHeader (bytes ++ [b]) = requestHeader bytes := by
  have kept {k : Nat} (hk : k < 8) := getD_concat_of_lt (hk.trans_le h) b
  simp only [requestHeader, kept, Nat.reduceLT]

theorem requestArg0_concat (bytes : List Byte) (b : Byte) : requestArg0 (bytes ++ [b]) =
    if bytes.length = 10 ∧ (bytes.getD 9 0 = 0x01#8 ∨ bytes.getD 9 0 = 0x04#8 ∨ bytes.getD 9 0 = 0x06#8) then b
    else requestArg0 bytes :=
  parsed_concat id b fun hlen => by rw [getD_concat_of_lt hlen]

theorem requestArg1_concat (bytes : List Byte) (b : Byte) : requestArg1 (bytes ++ [b]) =
    if bytes.length = 11 ∧ bytes.getD 9 0 = 0x01#8 then b else requestArg1 bytes :=
  parsed_concat id b fun hlen => by rw [getD_concat_of_lt (Nat.le_of_succ_le hlen)]

theorem requestArg1Seen_concat (bytes : List Byte) (b : Byte) : requestArg1Seen (bytes ++ [b]) =
    if bytes.length = 11 ∧ bytes.getD 9 0 = 0x01#8 then true else requestArg1Seen bytes := by
  have hlen : 12 ≤ (bytes ++ [b]).length ↔ bytes.length = 11 ∨ 12 ≤ bytes.length := by
    rw [List.length_append, List.length_singleton]; omega
  by_cases h9 : 9 < bytes.length
  · simp only [requestArg1Seen, hlen, getD_concat_of_lt h9]
    by_cases hcmd : bytes.getD 9 0 = 0x01#8
    · by_cases h11 : bytes.length = 11
      · simp only [hcmd, h11, true_and, true_or, decide_true, if_true]
      · simp only [hcmd, h11, true_and, false_or, false_and, if_false]
    · simp only [hcmd, false_and, and_false, if_false]
  · have h11 : bytes.length ≠ 11 := by omega
    have h12 : ¬ 12 ≤ bytes.length := by omega
    simp only [requestArg1Seen, hlen, h11, h12, or_self, and_false, false_and, if_false]

theorem asksPorts_concat (h : 13 ≤ bytes.length) (b : Byte) : AsksPorts (bytes ++ [b]) ↔ AsksPorts bytes := by
  rw [AsksPorts, AsksPorts, getD_concat_of_lt h, getD_concat_of_lt (Nat.le_of_succ_le h)]

theorem requestCount_concat (bytes : List Byte) (b : Byte) : requestCount (bytes ++ [b]) =
    if bytes.length = 20 ∧ AsksPorts bytes then clampPorts b else requestCount bytes :=
  parsed_concat clampPorts b fun hlen => asksPorts_concat (by omega) b

/-- A byte from position 21 on is the port ID of its index, when the count has that many (43_fmapi_commands.md
R211). -/
theorem requestPorts_concat (count : Byte) (h : 21 ≤ bytes.length) (b : Byte) :
    requestPorts count (bytes ++ [b]) =
      if bytes.length - 21 < count.toNat then (requestPorts count bytes).setIfInBounds (bytes.length - 21) b
      else requestPorts count bytes := by
  apply Vector.ext
  intro i hi
  have hpos : bytes.length = 21 + i ↔ bytes.length - 21 = i := by omega
  split
  · next hcount =>
    simp only [requestPorts, Vector.getElem_setIfInBounds, Vector.getElem_ofFn, getD_concat, hpos]
    by_cases heq : bytes.length - 21 = i
    · simp only [heq, if_true, heq ▸ hcount]
    · simp only [heq, if_false]
  · next hcount =>
    simp only [requestPorts, Vector.getElem_ofFn, getD_concat, hpos]
    by_cases heq : bytes.length - 21 = i
    · simp only [heq ▸ hcount, if_false]
    · simp only [heq, if_false]

/-- The count is in place before the first port ID, and only Get Physical Port State has one. -/
theorem requestPorts_requestCount_concat (bytes : List Byte) (b : Byte) :
    requestPorts (requestCount (bytes ++ [b])) (bytes ++ [b]) =
      if 21 ≤ bytes.length ∧ bytes.getD 12 0 = 0x51#8 ∧ bytes.getD 11 0 = 0x01#8 ∧
          bytes.length - 21 < (requestCount bytes).toNat then
        (requestPorts (requestCount bytes) bytes).setIfInBounds (bytes.length - 21) b
      else requestPorts (requestCount bytes) bytes := by
  by_cases h21 : 21 ≤ bytes.length
  · have hcount : requestCount (bytes ++ [b]) = requestCount bytes := by
      rw [requestCount_concat, if_neg (by omega)]
    rw [hcount, requestPorts_concat _ h21]
    by_cases hasks : AsksPorts bytes
    · obtain ⟨hset, hcmd⟩ := hasks
      simp only [h21, hset, hcmd, true_and]
    · have hzero : requestCount bytes = 0 := if_neg hasks
      simp only [hzero, BitVec.ofNat_eq_ofNat, BitVec.toNat_ofNat, Nat.zero_mod, Nat.not_lt_zero, and_false, if_false]
  · have hlen : (bytes ++ [b]).length ≤ 21 := by rw [List.length_append, List.length_singleton]; omega
    rw [requestPorts_of_short _ hlen, requestPorts_of_short _ (by omega), if_neg fun ⟨h, _⟩ => h21 h]

/-! ### Capturing a byte -/

/-- A control byte at position 8 or later (41_ingestion.md R135). -/
theorem captureControl_request {s : State} (hs : s.ctx = requestControl bytes) (h : 8 ≤ bytes.length)
    (p : Params) (b : Byte) :
    (captureControl p bytes.length b s).ctx = requestControl (bytes ++ [b]) := by
  rw [captureControl_ctx, hs]
  simp only [requestControl, requestHeader_concat_of_body h, getD_concat, requestArg0_concat, requestArg1_concat,
    requestArg1Seen_concat]
  rfl

/-- An FM-API byte at position 8 or later (41_ingestion.md R136). -/
theorem captureFmApi_request (h : 8 ≤ bytes.length) (b : Byte) :
    captureFmApi bytes.length b (requestFmApi bytes) = requestFmApi (bytes ++ [b]) := by
  rw [captureFmApi_eq]
  simp only [requestFmApi, requestPorts_requestCount_concat]
  simp only [requestHeader_concat_of_body h, getD_concat, requestCount_concat]
  rfl

/-- Whatever the sub-context, a byte extends the byte string by itself. -/
theorem capture_request_ctx {s : State} (hs : s.ctx = requestCtx bytes) (p : Params) (b : Byte) :
    (capture p bytes.length b s).ctx = requestCtx (bytes ++ [b]) := by
  by_cases h : bytes.length < 8
  · have hlen : (bytes ++ [b]).length ≤ 8 := by rw [List.length_append, List.length_singleton]; omega
    rw [capture, if_pos h, requestCtx_of_short hlen, requestHeader_concat, hs, requestCtx_of_short h.le]
  · have h8 : 8 ≤ bytes.length := not_lt.mp h
    have hsub : s.ctx.subCtx = subCtxOf (bytes.getD 7 0) := by rw [Ctx.subCtx, hs, requestCtx_msgType]
    rw [capture, if_neg h, hsub, requestCtx, getD_concat_of_lt h8]
    rw [requestCtx] at hs
    cases hmt : subCtxOf (bytes.getD 7 0) with
    | control =>
      rw [hmt] at hs
      exact captureControl_request hs h8 p b
    | fmapi =>
      rw [hmt] at hs
      exact (congrArg (captureFmApi _ b) hs).trans (captureFmApi_request h8 b)
    | none =>
      rw [hmt] at hs
      exact hs.trans (requestHeader_concat_of_body h8 b).symm

/-! ### `EID` -/

theorem subCtxOf_eq_control_iff {msgType : Byte} : subCtxOf msgType = .control ↔ msgType = 0x00#8 :=
  ⟨subCtxOf_eq_control, fun h => if_pos h⟩

theorem subCtxOf_eq_fmapi_iff {msgType : Byte} : subCtxOf msgType = .fmapi ↔ msgType = 0x07#8 := by
  unfold subCtxOf
  by_cases h : msgType = 0x00#8 <;> simp [h]

theorem requestCtx_of_control (h : bytes.getD 7 0 = 0x00#8) : requestCtx bytes = requestControl bytes := by
  rw [requestCtx, subCtxOf_eq_control_iff.mpr h]

theorem requestCtx_of_fmapi (h : bytes.getD 7 0 = 0x07#8) : requestCtx bytes = requestFmApi bytes := by
  rw [requestCtx, subCtxOf_eq_fmapi_iff.mpr h]

/-- The command registers of a request name an immediate commit exactly where its bytes do. -/
theorem commitsNow_request {s : State} (hs : s.ctx = requestCtx bytes) (p : Params) :
    CommitsNow p bytes.length s ↔
      p.eidCommit = .immediate ∧ bytes.length = 11 ∧ bytes.getD 7 0 = 0x00#8 ∧ bytes.getD 9 0 = 0x01#8 := by
  rw [CommitsNow, Ctx.subCtx, subCtxOf_eq_control_iff, hs, requestCtx_msgType]
  refine and_congr_right fun _ => and_congr_right fun _ => and_congr_right fun h0 => ?_
  rw [requestCtx_of_control h0]
  rfl

/-- `EID` after these bytes: an immediate Set Endpoint ID commits its byte (42_control_commands.md R171). -/
def requestEid (p : Params) (eid : Byte) (bytes : List Byte) : Byte :=
  if p.eidCommit = .immediate ∧ bytes.getD 7 0 = 0x00#8 ∧ bytes.getD 9 0 = 0x01#8 ∧ 12 ≤ bytes.length then
    bytes.getD 11 0
  else eid

theorem capture_request_eid {s : State} {eid : Byte} (hs : s.ctx = requestCtx bytes) (p : Params) (b : Byte)
    (heid : s.eid = requestEid p eid bytes) :
    (capture p bytes.length b s).eid = requestEid p eid (bytes ++ [b]) := by
  have hlen : (bytes ++ [b]).length = bytes.length + 1 := List.length_append
  obtain ⟨hnow, hb⟩ | ⟨hnot, hkeep⟩ := capture_eid p bytes.length b s
  · obtain ⟨hp, h11, hmt, hcmd⟩ := (commitsNow_request hs p).mp hnow
    rw [hb, requestEid, getD_concat_of_lt (by omega), getD_concat_of_lt (by omega), getD_concat, if_pos h11, hlen,
      if_pos ⟨hp, hmt, hcmd, by omega⟩]
  · rw [commitsNow_request hs] at hnot
    rw [hkeep, heid]
    by_cases h12 : 12 ≤ bytes.length
    · simp only [requestEid, hlen, getD_concat_of_lt (show 7 < bytes.length by omega),
        getD_concat_of_lt (show 9 < bytes.length by omega), getD_concat_of_lt (show 11 < bytes.length by omega),
        h12, Nat.le_succ_of_le h12]
    · rw [requestEid, if_neg fun ⟨_, _, _, h⟩ => h12 h, requestEid, if_neg]
      rintro ⟨hp, hmt, hcmd, h⟩
      rw [getD_concat_of_lt (by omega)] at hmt hcmd
      exact hnot ⟨hp, by omega, hmt, hcmd⟩

/-! ### The state after the bytes -/

/-- From position 276 on a byte is captured nowhere, whatever the port count. -/
theorem capture_of_far {n : Nat} (hn : 276 ≤ n) (p : Params) (b : Byte) (s : State) : capture p n b s = s := by
  have heid : (capture p n b s).eid = s.eid := by
    obtain ⟨⟨_, h, _⟩, _⟩ | ⟨_, h⟩ := capture_eid p n b s
    · omega
    · exact h
  have hctx : (capture p n b s).ctx = s.ctx := by
    have far {k : Nat} (hk : k < 276) : n ≠ k := by omega
    have hcount := s.ctx.fmNports.isLt
    unfold capture
    rw [if_neg (by omega)]
    split
    · rw [captureControl_ctx]
      simp only [far, Nat.reduceLT, if_false, false_and]
    · rw [captureFmApi_eq]
      simp only [far, Nat.reduceLT, if_false, false_and, and_false, show ¬ n - 21 < s.ctx.fmNports.toNat by omega]
    · rfl
  rw [capture_eq, heid, hctx]

/-- Saturation of the position is not seen by the capture (10_state.md R31). -/
theorem capture_sat16 (p : Params) (n : Nat) (b : Byte) (s : State) :
    capture p (sat16 n).toNat b s = capture p n b s := by
  rw [sat16_toNat]
  by_cases hn : n ≤ 0xFFFF
  · rw [min_eq_left hn]
  · rw [min_eq_right (by omega), capture_of_far (by omega), capture_of_far (by omega)]

/-- The state after START_WRITE and these bytes. -/
def State.received (s : State) (bytes : List Byte) : State :=
  { s.clearCtx with
    st := .rx
    ctx := requestCtx bytes
    rxPos := sat16 bytes.length
    rxCrc := crc8 bytes
    eid := requestEid Config.params s.eid bytes }

/-- START_WRITE begins a request of no bytes. -/
theorem exec_startWrite_received {s : State} (hf : s.fault = false)
    (hst : s.st = .idle ∨ s.st = .rx ∨ s.st = .rd) : exec .startWrite s = .next (s.received []) := by
  have hnext : execStartWrite s = .next { s.clearCtx with st := .rx } := by
    rw [execStartWrite, guarded_sound hf]
    obtain h | h | h := hst <;> rw [h]
  have heid : requestEid Config.params s.eid [] = s.eid := if_neg fun ⟨_, _, _, h⟩ => absurd h (by decide)
  have hctx : requestCtx [] = Ctx.cleared := rfl
  rw [exec, hnext, State.received, heid, hctx]
  rfl

/-- Capturing the next byte of a request, whatever the running CRC. -/
theorem capture_received (s : State) (crc b : Byte) :
    capture Config.params (s.received bytes).rxPos.toNat b { s.received bytes with rxCrc := crc } =
      { s.received bytes with
        rxCrc := crc
        ctx := requestCtx (bytes ++ [b])
        eid := requestEid Config.params s.eid (bytes ++ [b]) } := by
  refine (capture_sat16 _ bytes.length b _).trans ?_
  rw [capture_eq, capture_request_ctx rfl, capture_request_eid (eid := s.eid) rfl _ _ rfl]

theorem crc8_concat (bytes : List Byte) (b : Byte) : crc8 (bytes ++ [b]) = crc8Update (crc8 bytes) b :=
  List.foldl_concat ..

theorem sat16_length_concat (bytes : List Byte) (b : Byte) :
    sat16 (bytes ++ [b]).length = sat16 ((sat16 bytes.length).toNat + 1) := by
  apply BitVec.eq_of_toNat_eq
  simp only [sat16_toNat, List.length_append, List.length_singleton]
  omega

/-- RX_BYTE extends the request by its byte. -/
theorem exec_rxByte_received {s : State} (hf : s.fault = false) (b : Byte) :
    exec (.rxByte b) (s.received bytes) = .next (s.received (bytes ++ [b])) := by
  refine (rxByte_receiving (s := s.received bytes) Config.params b hf rfl).trans ?_
  rw [capture_received]
  simp only [State.received, crc8_concat, sat16_length_concat]

/-- RX_BYTE for each byte extends the request by all of them. -/
theorem execAll_rxBytes_received {s : State} (hf : s.fault = false) (more : List Byte) :
    execAll (more.map .rxByte) (s.received bytes) = .next (s.received (bytes ++ more)) := by
  induction more generalizing bytes with
  | nil => rw [List.append_nil]; rfl
  | cons b more ih =>
    rw [List.append_cons bytes b more, List.map_cons, execAll, exec_rxByte_received hf]
    exact ih

/-- START_WRITE and one RX_BYTE for each byte (30_encoding.md R101). -/
theorem execAll_receive {s : State} (hf : s.fault = false) (hst : s.st = .idle ∨ s.st = .rx ∨ s.st = .rd)
    (bytes : List Byte) : execAll (receive bytes) s = .next (s.received bytes) := by
  rw [receive, execAll, exec_startWrite_received hf hst]
  exact execAll_rxBytes_received hf bytes

/-! ### The registers of a request -/

theorem clampPorts_toNat (b : Byte) : (clampPorts b).toNat = min b.toNat 10 := by
  rw [clampPorts, BitVec.toNat_ofNat, portCap]
  omega

/-- The header registers, whatever the message type. -/
theorem requestCtx_header (bytes : List Byte) :
    let c := requestCtx bytes
    c.preamble = bytes.getD 0 0 ∧ c.byteCount = bytes.getD 1 0 ∧ c.srcAddr = bytes.getD 2 0 ∧
      c.hdrVer = bytes.getD 3 0 ∧ c.dstEid = bytes.getD 4 0 ∧ c.srcEid = bytes.getD 5 0 ∧
      c.tagByte = bytes.getD 6 0 ∧ c.msgType = bytes.getD 7 0 := by
  unfold requestCtx
  split <;> exact ⟨rfl, rfl, rfl, rfl, rfl, rfl, rfl, rfl⟩

/-- The control registers of a request that is no control request. -/
theorem requestCtx_control_clear (h0 : bytes.getD 7 0 ≠ 0x00#8) :
    let c := requestCtx bytes
    c.ctlFlags = 0 ∧ c.ctlCmd = 0 ∧ c.ctlArg0 = 0 ∧ c.ctlArg1 = 0 ∧ c.arg1Seen = false := by
  unfold requestCtx
  split
  · next h => exact absurd (subCtxOf_eq_control h) h0
  · exact ⟨rfl, rfl, rfl, rfl, rfl⟩
  · exact ⟨rfl, rfl, rfl, rfl, rfl⟩

/-- The FM-API registers of a request that is no FM-API request. -/
theorem requestCtx_fmapi_clear (h7 : bytes.getD 7 0 ≠ 0x07#8) :
    let c := requestCtx bytes
    c.fmCategory = 0 ∧ c.fmTag = 0 ∧ c.fmCmd = 0 ∧ c.fmSet = 0 ∧ c.fmNports = 0 := by
  unfold requestCtx
  split
  · exact ⟨rfl, rfl, rfl, rfl, rfl⟩
  · next h => exact absurd (subCtxOf_eq_fmapi_iff.mp h) h7
  · exact ⟨rfl, rfl, rfl, rfl, rfl⟩

theorem requestCount_toNat (bytes : List Byte) : (requestCount bytes).toNat =
    if bytes.getD 12 0 = 0x51#8 ∧ bytes.getD 11 0 = 0x01#8 then min (bytes.getD 20 0).toNat 10 else 0 := by
  rw [requestCount, apply_ite BitVec.toNat, clampPorts_toNat]
  rfl

/-- The port IDs below the count, in the order of their positions; none where the request has no count. -/
theorem requestCtx_ports (bytes : List Byte) (i : Nat) (h : i < 10) :
    (requestCtx bytes).ports[i] =
      if i < (requestCtx bytes).fmNports.toNat then bytes.getD (21 + i) 0 else 0 := by
  unfold requestCtx
  split
  · exact Vector.getElem_replicate h
  · exact Vector.getElem_ofFn h
  · exact Vector.getElem_replicate h

end

end Sys2Proof.Machine

namespace Sys2Proof.Machine

open Sys2Proof

/-! CERTIFICATE. A request is reconstructed from its bytes. -/

/-- Settles O28: START_WRITE and the bytes leave `State.received`, whose Frame Context is the one the byte string
stands for. -/
theorem requestIsReconstructed : Obligations.RequestIsReconstructed := by
  intro s bytes hf hst
  refine ⟨s.received bytes, execAll_receive hf hst bytes, rfl, rfl, rfl, ⟨rfl, rfl, rfl⟩,
    ⟨hf, rfl, rfl, rfl, rfl, rfl, rfl⟩, requestCtx_header bytes, fun h0 => ?_, requestCtx_control_clear,
    fun h7 => ?_, requestCtx_fmapi_clear, requestCtx_ports bytes, rfl⟩
  · have hctx : (s.received bytes).ctx = requestControl bytes := requestCtx_of_control h0
    rw [hctx]
    exact ⟨rfl, rfl, rfl, rfl, rfl⟩
  · have hctx : (s.received bytes).ctx = requestFmApi bytes := requestCtx_of_fmapi h7
    rw [hctx]
    exact ⟨rfl, rfl, rfl, rfl, requestCount_toNat bytes⟩

end Sys2Proof.Machine

namespace Sys2Proof.Machine

open Sys2Proof

/-! CERTIFICATE. The checksum (40_checksum.md): the update is eight shifts, the CRC of a sequence goes on from that
of its front, and the PEC covers the whole reply image. -/

/-! ### The update (40_checksum.md R121) -/

/-- One shift of the update: bit 7 leaves, and the polynomial is subtracted where it was set. -/
def crcShiftOnce (x : Byte) : Byte := if x.getLsbD 7 = true then (x <<< 1) ^^^ 0x07#8 else x <<< 1

theorem crcShift_succ (n : Nat) (x : Byte) : crcShift (n + 1) x = crcShift n (crcShiftOnce x) := by
  rw [crcShift, crcShiftOnce, BitVec.msb_eq_getLsbD_last]

theorem crcShift_eq_iterate (n : Nat) (x : Byte) : crcShift n x = crcShiftOnce^[n] x := by
  induction n generalizing x with
  | zero => rfl
  | succ n ih => rw [crcShift_succ, ih, Function.iterate_succ_apply]

/-- With no bit set nothing is ever subtracted. -/
@[simp] theorem crcShift_zero (n : Nat) : crcShift n 0x00#8 = 0x00#8 := by
  rw [crcShift_eq_iterate]
  exact Function.iterate_fixed rfl n

theorem crc8Update_congr {c b c' b' : Byte} (h : c ^^^ b = c' ^^^ b') : crc8Update c b = crc8Update c' b' :=
  congrArg (crcShift 8) h

/-- The running value cancels itself: no final XOR stands in the way (40_checksum.md R122). -/
@[simp] theorem crc8Update_self (c : Byte) : crc8Update c c = 0x00#8 := by
  rw [crc8Update, BitVec.xor_self, crcShift_zero]

/-- Settles O49: the recursion of `crcShift` is the iteration, and the rule's five values are computed. -/
theorem checksumUpdateIsEightShifts : Obligations.ChecksumUpdateIsEightShifts :=
  ⟨fun c b => crcShift_eq_iterate 8 (c ^^^ b), fun _ _ _ _ => crc8Update_congr, by decide, by decide, by decide,
    by decide, by decide⟩

/-! ### Sequences (40_checksum.md R122) -/

theorem crc8_append (a b : List Byte) : crc8 (a ++ b) = crc8From (crc8 a) b := List.foldl_append

theorem crc8_append_crc8 (m : List Byte) : crc8 (m ++ [crc8 m]) = 0x00#8 := by
  rw [crc8_concat, crc8Update_self]

/-- Settles O50: the CRC is a fold, and its last step on its own value gives 0. -/
theorem checksumOfSequences : Obligations.ChecksumOfSequences := ⟨crc8_append, crc8_append_crc8, rfl⟩

/-! ### The PEC of a reply (40_checksum.md R125, R126) -/

/-- Reading a prefix gives a list when each index reads its element (20_memory.md R62). -/
theorem Memory.readPrefix_eq {m : Memory} {l : List Byte} (h : ∀ i, i < l.length → some (m.read i) = l[i]?) :
    m.readPrefix l.length = l := by
  apply List.ext_getElem?
  intro i
  by_cases hi : i < l.length
  · rw [← h i hi, Memory.readPrefix, List.getElem?_map, List.getElem?_range hi, Option.map_some]
  · rw [List.getElem?_eq_none (by simpa [Memory.readPrefix] using hi), List.getElem?_eq_none (by omega)]

section
variable {s : State}

/-- From the PEC slot on the send buffer holds the whole image (44_responder.md R237). -/
theorem ReplyInProgress.readPrefix_eq_image (h : ReplyInProgress s) (hpos : s.txLen.toNat ≤ s.txPos.toNat) :
    s.sendbuf.readPrefix s.txLen.toNat = s.image Config.params := by
  rw [h.length]
  refine Memory.readPrefix_eq fun i hi => ?_
  have hlen : i < s.txLen.toNat := h.length ▸ hi
  exact h.sent i (by omega) hlen

/-- TX_ACK at `TX_POS = TX_LEN` runs the PEC slot (44_responder.md R237). -/
theorem txAck_pecSlot (p : Params) (hf : s.fault = false) (hst : s.st = .ack) (hpec : s.txPos = s.txLen) :
    txAck p s = .next (pecSlot s) := by
  have hdata : ¬ s.txPos < s.txLen := by rw [hpec]; exact BitVec.lt_irrefl _
  rw [txAck_sending p hf hst, ackStep, if_neg hdata, if_pos hpec]

end

/-- Settles O37: the PEC slot reads the send buffer, which under the invariant is the image. -/
theorem pecCoversTheWholeImage : Obligations.PecCoversTheWholeImage := by
  intro s hinv hf hst hpec
  have himage : s.sendbuf.readPrefix s.txLen.toNat = s.image Config.params :=
    (hinv.sending hst).readPrefix_eq_image (by rw [hpec])
  have hout : (pecSlot s).output = s.output ++ [.txByte (crc8 (s.image Config.params))] := by
    rw [← himage]
    rfl
  exact ⟨pecSlot s, txAck_pecSlot Config.params hf hst hpec, hout, crc8_append_crc8 _⟩

end Sys2Proof.Machine

namespace Sys2Proof.Machine

open Sys2Proof

/-! SUPPORT. The events of 41_ingestion.md on an unfaulted state, one equation for each row of an event's case table,
and what RX_BYTE captures by the sub-context. -/

section
variable {s : State}

/-! ### START_WRITE and START_READ (41_ingestion.md R131, R138) -/

theorem execStartWrite_begins (hf : s.fault = false) (hst : s.st = .idle ∨ s.st = .rx ∨ s.st = .rd) :
    execStartWrite s = .next { s.clearCtx with st := .rx } := by
  rw [execStartWrite, guarded_sound hf]
  obtain h | h | h := hst <;> rw [h]

theorem execStartWrite_busy (hf : s.fault = false) (hst : s.st = .processRequest ∨ s.st = .ack) :
    execStartWrite s = .next (s.raiseFault .startWriteBusy) := by
  rw [execStartWrite, guarded_sound hf]
  obtain h | h := hst <;> rw [h]

theorem execStartRead_begins (hf : s.fault = false) (hst : s.st = .idle ∨ s.st = .rx ∨ s.st = .rd) :
    execStartRead s = .next { s.clearCtx with st := .rd } := by
  rw [execStartRead, guarded_sound hf]
  obtain h | h | h := hst <;> rw [h]

theorem execStartRead_busy (hf : s.fault = false) (hst : s.st = .processRequest ∨ s.st = .ack) :
    execStartRead s = .next (s.raiseFault .startReadBusy) := by
  rw [execStartRead, guarded_sound hf]
  obtain h | h := hst <;> rw [h]

/-! ### READ_REQ (41_ingestion.md R140) -/

theorem execReadReq_draws (hf : s.fault = false) (hst : s.st = .rd) :
    execReadReq s = .next { s.emit (.readData (Config.readData s.draws)) with draws := s.draws + 1 } := by
  rw [execReadReq, guarded_sound hf, if_pos hst]

theorem execReadReq_outside (hf : s.fault = false) (hst : s.st ≠ .rd) :
    execReadReq s = .next (s.raiseFault .readOutside) := by
  rw [execReadReq, guarded_sound hf, if_neg hst]

/-! ### FINISH (41_ingestion.md R139) -/

theorem finish_receiving (p : Params) (hf : s.fault = false) (hst : s.st = .rx) :
    finish p s = .next
      { s with
        eid := finishEid p s
        st := .processRequest
        busReq := true
        output := if s.busReq = true then s.output else s.output ++ [.reqBus] } := by
  rw [finish, guarded_sound hf, ← finish_update, hst]

theorem finish_without_request (p : Params) (hf : s.fault = false) (hst : s.st = .idle ∨ s.st = .rd) :
    finish p s = .next { s with st := .idle } := by
  rw [finish, guarded_sound hf]
  obtain h | h := hst <;> rw [h]

theorem finish_busy (p : Params) (hf : s.fault = false) (hst : s.st = .processRequest ∨ s.st = .ack) :
    finish p s = .next (s.raiseFault .finishBusy) := by
  rw [finish, guarded_sound hf]
  obtain h | h := hst <;> rw [h]

/-! ### NACK (41_ingestion.md R141) -/

theorem execNack_idle (hf : s.fault = false) (hst : s.st = .idle) : execNack s = .next s := by
  rw [execNack, guarded_sound hf, hst]

theorem execNack_aborts (hf : s.fault = false) (hst : s.st = .rx ∨ s.st = .rd ∨ s.st = .processRequest) :
    execNack s = .next s.endTransaction := by
  rw [execNack, guarded_sound hf]
  obtain h | h | h := hst <;> rw [h]

theorem execNack_ack (hf : s.fault = false) (hst : s.st = .ack) :
    execNack s = .next ((s.emit .txEnd).emit .busRelease).endTransaction := by
  rw [execNack, guarded_sound hf, hst]

/-! ### BUS_GRANT and the request rows (41_ingestion.md R142) -/

theorem grant_unrequested (p : Params) (kind : ReplyKind) (hf : s.fault = false) (hb : s.busReq = false) :
    grant p kind s = .next (s.raiseFault .grantUnrequested) := by
  rw [grant, guarded_sound hf, if_neg (by simp [hb])]

theorem grant_cancelled (p : Params) (kind : ReplyKind) (hf : s.fault = false) (hb : s.busReq = true)
    (hst : s.st ≠ .processRequest) :
    grant p kind s = .next ({ s with busReq := false }.emit .busRelease) := by
  rw [grant, guarded_sound hf, if_pos hb]
  exact if_neg hst

theorem grant_serves (p : Params) (kind : ReplyKind) (hf : s.fault = false) (hb : s.busReq = true)
    (hst : s.st = .processRequest) :
    grant p kind s = .next (processRequest p kind { s with busReq := false }) := by
  rw [grant, guarded_sound hf, if_pos hb]
  exact if_pos hst

/-! ### What RX_BYTE captures (41_ingestion.md R132–R137) -/

/-- RX_BYTE in RX at position `n` (41_ingestion.md R132). -/
theorem exec_rxByte_at {n : Nat} (hf : s.fault = false) (hst : s.st = .rx) (b : Byte) (hpos : s.rxPos.toNat = n) :
    exec (.rxByte b) s = .next
      { capture Config.params n b { s with rxCrc := crc8Update s.rxCrc b } with
        rxPos := sat16 (s.rxPos.toNat + 1) } := by
  subst hpos
  exact rxByte_receiving Config.params b hf hst

theorem capture_of_header {n : Nat} (hn : n < 8) (p : Params) (b : Byte) (s : State) :
    capture p n b s = { s with ctx := captureHeader n b s.ctx } :=
  if_pos hn

theorem capture_of_control {n : Nat} (hn : 8 ≤ n) (hmt : s.ctx.msgType = 0x00#8) (p : Params) (b : Byte) :
    capture p n b s = captureControl p n b s := by
  rw [capture, if_neg hn.not_gt, Ctx.subCtx, subCtxOf_eq_control_iff.mpr hmt]

theorem capture_of_fmapi {n : Nat} (hn : 8 ≤ n) (hmt : s.ctx.msgType = 0x07#8) (p : Params) (b : Byte) :
    capture p n b s = { s with ctx := captureFmApi n b s.ctx } := by
  rw [capture, if_neg hn.not_gt, Ctx.subCtx, subCtxOf_eq_fmapi_iff.mpr hmt]

theorem capture_of_undecoded {n : Nat} (hn : 8 ≤ n) (h0 : s.ctx.msgType ≠ 0x00#8) (h7 : s.ctx.msgType ≠ 0x07#8)
    (p : Params) (b : Byte) : capture p n b s = s := by
  have hsub : s.ctx.subCtx = .none := (if_neg h0).trans (if_neg h7)
  rw [capture, if_neg hn.not_gt, hsub]

/-- No control command parses a position past 11 (30_encoding.md R89). -/
theorem controlBodyParser_past {n : Nat} (hn : 12 ≤ n) (p : Params) (cmd b : Byte) (s : State) :
    controlBodyParser p cmd n b s = s := by
  have h10 : n ≠ 10 := by omega
  have h11 : n ≠ 11 := by omega
  simp only [controlBodyParser, parseSetEid, parseGetVersion, parseGetVdm, h10, h11, if_false, ite_self]

/-- Only three control commands have a body (41_ingestion.md R135). -/
theorem controlBodyParser_without_body {cmd : Byte} (h1 : cmd ≠ 0x01#8) (h4 : cmd ≠ 0x04#8) (h6 : cmd ≠ 0x06#8)
    (p : Params) (n : Nat) (b : Byte) (s : State) : controlBodyParser p cmd n b s = s := by
  rw [controlBodyParser, if_neg h1, if_neg h4, if_neg h6]

theorem captureControl_of_body {n : Nat} (hn : 10 ≤ n) (p : Params) (b : Byte) (s : State) :
    captureControl p n b s = controlBodyParser p s.ctx.ctlCmd n b s := by
  rw [captureControl, if_neg (by omega), if_neg (by omega)]

/-- FM-API positions 10 and 13..19 have no register (30_encoding.md R86). -/
theorem captureFmApi_of_gap {n : Nat} (hn : n = 10 ∨ (13 ≤ n ∧ n ≤ 19)) (b : Byte) (c : Ctx) :
    captureFmApi n b c = c := by
  have ne {k : Nat} (hk : k ≠ 10 ∧ (k < 13 ∨ 19 < k)) : n ≠ k := by omega
  have h21 : ¬ 21 ≤ n := by omega
  rw [captureFmApi_eq]
  simp [ne, h21]

/-- Only Get Physical Port State has a body (41_ingestion.md R136). -/
theorem captureFmApi_without_body {n : Nat} (hn : 20 ≤ n) {c : Ctx} (hcmd : ¬(c.fmSet = 0x51#8 ∧ c.fmCmd = 0x01#8))
    (b : Byte) : captureFmApi n b c = c := by
  have ne {k : Nat} (hk : k < 20) : n ≠ k := by omega
  have h19 : ¬ n ≤ 19 := by omega
  simp only [captureFmApi, ne, Nat.reduceLT, h19, hcmd, if_false]

end

end Sys2Proof.Machine

namespace Sys2Proof.Machine

open Sys2Proof

/-! CERTIFICATE. Ingestion (41_ingestion.md): each event in each state, the byte captured at each position, the
transition summary, and who starts a reply. -/

/-! ### The events but RX_BYTE -/

/-- Settles O11: every instruction is guarded by `FAULT`. -/
theorem faultedBlockIgnoresEveryEvent : Obligations.FaultedBlockIgnoresEveryEvent := by
  intro i s hf
  induction i using instr_grant_or_event with
  | grant i hi => rw [exec_grant hi]; exact guarded_faulted hf _
  | _ => exact guarded_faulted hf _

/-- Settles O15: the two rows of START_WRITE's case table. -/
theorem startWriteBeginsARequest : Obligations.StartWriteBeginsARequest :=
  fun _ hf => ⟨execStartWrite_begins hf, execStartWrite_busy hf⟩

/-- Settles O16: the two rows of START_READ's case table. -/
theorem startReadBeginsAMasterRead : Obligations.StartReadBeginsAMasterRead :=
  fun _ hf => ⟨execStartRead_begins hf, execStartRead_busy hf⟩

/-- Settles O17: READ_REQ draws in RD and faults elsewhere. -/
theorem readReqEmitsADraw : Obligations.ReadReqEmitsADraw :=
  fun _ hf => ⟨execReadReq_draws hf, execReadReq_outside hf⟩

/-- Settles O18: the three rows of FINISH's case table; the control sub-context is message type 0x00. -/
theorem finishRequestsTheBus : Obligations.FinishRequestsTheBus := by
  intro s hf
  refine ⟨fun hst => ?_, finish_without_request _ hf, finish_busy _ hf⟩
  refine (finish_receiving Config.params hf hst).trans ?_
  simp only [finishEid, Ctx.subCtx, subCtxOf_eq_control_iff]

/-- Settles O19: the three rows of NACK's case table; in ACK its two actions are appended one after the other. -/
theorem nackAborts : Obligations.NackAborts := by
  intro s hf
  refine ⟨execNack_idle hf, execNack_aborts hf, fun hst => ?_⟩
  rw [List.append_cons s.output]
  exact execNack_ack hf hst

/-- Settles O7: BUS_GRANT serves the reply kind of the row its key selects. -/
theorem grantRunsTheSelectedRow : Obligations.GrantRunsTheSelectedRow := exec_busGrant_eq_row

/-- Settles O33: the three rows of BUS_GRANT's case table; a served request ends or starts its reply. -/
theorem busGrantServesOrReleases : Obligations.BusGrantServesOrReleases := by
  intro s hf
  refine ⟨grant_unrequested _ _ hf, grant_cancelled _ _ hf, fun hb hst => ⟨fun hk => ?_, fun hk => ?_⟩⟩
  all_goals refine (grant_serves Config.params _ hf hb hst).trans ?_
  · rw [hk, processRequest_none]
    rfl
  · rw [processRequest_reply _ hk]
    rfl

/-! ### RX_BYTE -/

/-- A header position takes its byte, and the position does not saturate there (41_ingestion.md R133). -/
theorem exec_rxByte_header {s : State} {pos : BitVec 16} (hf : s.fault = false) (hst : s.st = .rx) (b : Byte)
    (hlt : pos.toNat < 8) (hpos : s.rxPos = pos) :
    exec (.rxByte b) s = .next
      { s with
        rxCrc := crc8Update s.rxCrc b
        rxPos := s.rxPos + 1
        ctx := captureHeader pos.toNat b s.ctx } := by
  have hsucc : sat16 (s.rxPos.toNat + 1) = s.rxPos + 1 := by
    rw [sat16_succ, hpos, if_neg (by bv_omega)]
  rw [exec_rxByte_at hf hst b (congrArg BitVec.toNat hpos), capture_of_header hlt, hsucc]

/-- Settles O20: `captureHeader` evaluated at each of the eight positions. -/
theorem headerCapture : Obligations.HeaderCapture := by
  intro s b hf hst
  have header {pos : BitVec 16} := exec_rxByte_header (pos := pos) hf hst b
  refine ⟨header ?_, header ?_, header ?_, header ?_, header ?_, header ?_, header ?_, header ?_⟩ <;> decide

/-- A control byte at position 8 or later (41_ingestion.md R135). -/
theorem exec_rxByte_control {s : State} {n : Nat} (hf : s.fault = false) (hst : s.st = .rx)
    (hmt : s.ctx.msgType = 0x00#8) (b : Byte) (hn : 8 ≤ n) (hpos : s.rxPos.toNat = n) :
    exec (.rxByte b) s = .next
      { captureControl Config.params n b { s with rxCrc := crc8Update s.rxCrc b } with
        rxPos := sat16 (s.rxPos.toNat + 1) } := by
  rw [exec_rxByte_at hf hst b hpos, capture_of_control hn]
  exact hmt

/-- Settles O21: `captureControl` evaluated at positions 8 and 9, and the bodies that no command parses. -/
theorem controlCapture : Obligations.ControlCapture := by
  intro s b hf hst hmt
  have control {n : Nat} := exec_rxByte_control (n := n) hf hst hmt b
  refine ⟨fun hpos => control (Nat.le_refl 8) (congrArg BitVec.toNat hpos),
    fun hpos => control (Nat.le_succ 8) (congrArg BitVec.toNat hpos), fun hn ⟨h1, h4, h6⟩ => ?_, fun hn => ?_⟩
  · rw [control (by omega) rfl, captureControl_of_body hn, controlBodyParser_without_body h1 h4 h6]
  · rw [control (by omega) rfl, captureControl_of_body (by omega), controlBodyParser_past hn]

/-- An FM-API byte at position 8 or later (41_ingestion.md R136). -/
theorem exec_rxByte_fmapi {s : State} {n : Nat} (hf : s.fault = false) (hst : s.st = .rx)
    (hmt : s.ctx.msgType = 0x07#8) (b : Byte) (hn : 8 ≤ n) (hpos : s.rxPos.toNat = n) :
    exec (.rxByte b) s = .next
      { s with
        rxCrc := crc8Update s.rxCrc b
        rxPos := sat16 (s.rxPos.toNat + 1)
        ctx := captureFmApi n b s.ctx } := by
  rw [exec_rxByte_at hf hst b hpos, capture_of_fmapi hn]
  exact hmt

/-- Settles O24: `captureFmApi` evaluated at the four positions with a register, and the two kinds of position
without one. -/
theorem fmApiCapture : Obligations.FmApiCapture := by
  intro s b hf hst hmt
  have fmapi {n : Nat} := exec_rxByte_fmapi (n := n) hf hst hmt b
  refine ⟨fun hpos => fmapi ?_ (congrArg BitVec.toNat hpos), fun hpos => fmapi ?_ (congrArg BitVec.toNat hpos),
    fun hpos => fmapi ?_ (congrArg BitVec.toNat hpos), fun hpos => fmapi ?_ (congrArg BitVec.toNat hpos),
    fun hpos => ?_, fun hn hcmd => ?_⟩
  case refine_5 =>
    have hgap : s.rxPos.toNat = 10 ∨ (13 ≤ s.rxPos.toNat ∧ s.rxPos.toNat ≤ 19) :=
      hpos.imp_left (congrArg BitVec.toNat)
    rw [fmapi (by omega) rfl, captureFmApi_of_gap hgap]
  case refine_6 => rw [fmapi (by omega) rfl, captureFmApi_without_body hn hcmd]
  all_goals decide

/-- Settles O26: with no sub-context the capture keeps the state. -/
theorem undecodedTypeCapturesNothing : Obligations.UndecodedTypeCapturesNothing := by
  intro s b hf hst h0 h7 hn
  rw [exec_rxByte_at hf hst b rfl, capture_of_undecoded hn]
  · exact h0
  · exact h7

/-! ### The transition summary (41_ingestion.md R144) -/

section
variable {s t : State}

/-- Of what an event can do, an unfaulted block does not stay as it is for its fault. -/
theorem not_stays_faulted (hf : s.fault = false) : ¬ (s.fault = true ∧ t = s) := by simp [hf]

theorem allowedSt_grant {i : Instr} (hi : i.isGrant = true) (st : St) (busReq : Bool) :
    allowedSt i st busReq = if st = .processRequest ∧ busReq = true then [.ack, .idle] else [st] := by
  cases i with
  | startWrite | rxByte | finish | nack | startRead | readReq | txAck => cases hi
  | _ => rfl

/-- A served request leaves IDLE without a reply and ACK with one (44_responder.md R233, R234). -/
theorem processRequest_st (p : Params) (kind : ReplyKind) (s : State) :
    (processRequest p kind s).st = if kind = .none then .idle else .ack := by
  by_cases hk : kind = .none
  · subst hk; rfl
  · rw [processRequest_reply p hk, if_neg hk]

theorem grant_st {i : Instr} {p : Params} {kind : ReplyKind} (hi : i.isGrant = true) (hf : s.fault = false)
    (h : grant p kind s = .next t) : t.st ∈ allowedSt i s.st s.busReq := by
  rw [allowedSt_grant hi]
  obtain ⟨_, hb, rfl⟩ | ⟨_, _, hst, rfl⟩ | ⟨_, hb, hst, rfl⟩ := (grant_next h).resolve_left (not_stays_faulted hf)
  · simp [hb]
  · simp [hst]
  · rw [if_pos ⟨hst, hb⟩, processRequest_st]
    split <;> simp

theorem startWrite_st (hf : s.fault = false) (h : execStartWrite s = .next t) :
    t.st ∈ allowedSt .startWrite s.st s.busReq := by
  obtain ⟨_, hst, rfl⟩ | ⟨_, hst, rfl⟩ := (startWrite_next h).resolve_left (not_stays_faulted hf)
  · obtain hst | hst | hst := hst <;> simp [allowedSt, hst]
  · obtain hst | hst := hst <;> simp [allowedSt, hst]

theorem startRead_st (hf : s.fault = false) (h : execStartRead s = .next t) :
    t.st ∈ allowedSt .startRead s.st s.busReq := by
  obtain ⟨_, hst, rfl⟩ | ⟨_, hst, rfl⟩ := (startRead_next h).resolve_left (not_stays_faulted hf)
  · obtain hst | hst | hst := hst <;> simp [allowedSt, hst]
  · obtain hst | hst := hst <;> simp [allowedSt, hst]

theorem rxByte_st {p : Params} {b : Byte} (hf : s.fault = false) (h : rxByte p b s = .next t) :
    t.st ∈ allowedSt (.rxByte b) s.st s.busReq := by
  obtain ⟨_, _, rfl⟩ | ⟨_, _, rfl⟩ := (rxByte_next h).resolve_left (not_stays_faulted hf) <;> simp [allowedSt]

theorem finish_st {p : Params} (hf : s.fault = false) (h : finish p s = .next t) :
    t.st ∈ allowedSt .finish s.st s.busReq := by
  obtain ⟨_, hst, rfl⟩ | ⟨_, hst, rfl⟩ | ⟨_, hst, rfl⟩ := (finish_next h).resolve_left (not_stays_faulted hf)
  · simp [allowedSt, hst]
  · obtain hst | hst := hst <;> simp [allowedSt, hst]
  · obtain hst | hst := hst <;> simp [allowedSt, hst]

theorem nack_st (hf : s.fault = false) (h : execNack s = .next t) : t.st ∈ allowedSt .nack s.st s.busReq := by
  obtain ⟨_, hst, rfl⟩ | ⟨_, _, rfl⟩ | ⟨_, _, rfl⟩ := (nack_next h).resolve_left (not_stays_faulted hf)
  · simp [allowedSt, hst]
  · simp [allowedSt]
  · simp [allowedSt]

theorem readReq_st (hf : s.fault = false) (h : execReadReq s = .next t) :
    t.st ∈ allowedSt .readReq s.st s.busReq := by
  obtain ⟨_, _, rfl⟩ | ⟨_, _, rfl⟩ := (readReq_next h).resolve_left (not_stays_faulted hf) <;> simp [allowedSt]

/-- TX_ACK stays in ACK until its terminator slot (44_responder.md R236–R238). -/
theorem txAck_st {p : Params} (hf : s.fault = false) (h : txAck p s = .next t) :
    t.st ∈ allowedSt .txAck s.st s.busReq := by
  obtain ⟨_, hst, rfl⟩ | ⟨_, hst, _, _, _, rfl⟩ | ⟨_, hst, _, rfl⟩ | ⟨_, hst, _, _, _, rfl⟩ :=
    (txAck_next h).resolve_left (not_stays_faulted hf)
  · simp [allowedSt, hst]
  · simp [allowedSt, hst]
  · simp [allowedSt, hst, pecSlot]
  · simp [allowedSt, hst, terminatorSlot]

end

/-- Settles O55: one column of the summary for each event, the request rows in that of BUS_GRANT. -/
theorem transitionSummary : Obligations.TransitionSummary := by
  intro i s t hf hexec
  induction i using instr_grant_or_event with
  | grant i hi => rw [exec_grant hi] at hexec; exact grant_st hi hf hexec
  | startWrite => exact startWrite_st hf hexec
  | rxByte b => exact rxByte_st hf hexec
  | finish => exact finish_st hf hexec
  | nack => exact nack_st hf hexec
  | startRead => exact startRead_st hf hexec
  | readReq => exact readReq_st hf hexec
  | txAck => exact txAck_st hf hexec

/-! ### Who starts a reply (41_ingestion.md R145) -/

/-- The outputs of `t` are those of `s` and then no TX_START. -/
def StartsNoReply (s t : State) : Prop :=
  ∃ acts, t.output = s.output ++ acts ∧ ∀ a, Action.txStart a ∉ acts

theorem StartsNoReply.countAction_eq {s t : State} (h : StartsNoReply s t) (a : Addr7) :
    countAction (.txStart a) t.output = countAction (.txStart a) s.output := by
  obtain ⟨acts, hout, hnone⟩ := h
  have hcount : countAction (.txStart a) acts = 0 :=
    List.countP_eq_zero.mpr fun x hx => by simpa using ne_of_mem_of_not_mem hx (hnone a)
  rw [hout, countAction_append, hcount, Nat.add_zero]

section
variable {s t : State}

theorem StartsNoReply.of_silent (h : t.output = s.output) : StartsNoReply s t :=
  ⟨[], h.trans (List.append_nil _).symm, fun _ => List.not_mem_nil⟩

theorem startWrite_startsNoReply (h : execStartWrite s = .next t) : StartsNoReply s t := by
  obtain ⟨_, rfl⟩ | ⟨_, _, rfl⟩ | ⟨_, _, rfl⟩ := startWrite_next h <;> exact .of_silent rfl

theorem startRead_startsNoReply (h : execStartRead s = .next t) : StartsNoReply s t := by
  obtain ⟨_, rfl⟩ | ⟨_, _, rfl⟩ | ⟨_, _, rfl⟩ := startRead_next h <;> exact .of_silent rfl

theorem rxByte_startsNoReply {p : Params} {b : Byte} (h : rxByte p b s = .next t) : StartsNoReply s t := by
  obtain ⟨_, rfl⟩ | ⟨_, _, rfl⟩ | ⟨_, _, rfl⟩ := rxByte_next h <;> exact .of_silent (by simp)

theorem finish_startsNoReply {p : Params} (h : finish p s = .next t) : StartsNoReply s t := by
  obtain ⟨_, rfl⟩ | ⟨_, _, rfl⟩ | ⟨_, _, rfl⟩ | ⟨_, _, rfl⟩ := finish_next h
  · exact .of_silent rfl
  · cases hb : s.busReq with
    | true => exact .of_silent rfl
    | false => exact ⟨[.reqBus], rfl, by simp⟩
  · exact .of_silent rfl
  · exact .of_silent rfl

theorem nack_startsNoReply (h : execNack s = .next t) : StartsNoReply s t := by
  obtain ⟨_, rfl⟩ | ⟨_, _, rfl⟩ | ⟨_, _, rfl⟩ | ⟨_, _, rfl⟩ := nack_next h
  · exact .of_silent rfl
  · exact .of_silent rfl
  · exact .of_silent rfl
  · exact ⟨[.txEnd, .busRelease], by simp, by simp⟩

theorem readReq_startsNoReply (h : execReadReq s = .next t) : StartsNoReply s t := by
  obtain ⟨_, rfl⟩ | ⟨_, _, rfl⟩ | ⟨_, _, rfl⟩ := readReq_next h
  · exact .of_silent rfl
  · exact ⟨[.readData _], rfl, by simp⟩
  · exact .of_silent rfl

theorem txAck_startsNoReply {p : Params} (h : txAck p s = .next t) : StartsNoReply s t := by
  obtain ⟨_, rfl⟩ | ⟨_, _, rfl⟩ | ⟨_, _, _, b, _, rfl⟩ | ⟨_, _, _, rfl⟩ | ⟨_, _, _, _, _, rfl⟩ := txAck_next h
  · exact .of_silent rfl
  · exact .of_silent rfl
  · exact ⟨[.txByte b], rfl, by simp⟩
  · exact ⟨[.txByte _], rfl, by simp⟩
  · exact ⟨[.txEnd, .busRelease], by simp [terminatorSlot], by simp⟩

/-- A grant starts a reply only where it serves a pending request (41_ingestion.md R142). -/
theorem grant_startsNoReply_or {p : Params} {kind : ReplyKind} (h : grant p kind s = .next t) :
    StartsNoReply s t ∨ (s.fault = false ∧ s.busReq = true ∧ s.st = .processRequest) := by
  obtain ⟨_, rfl⟩ | ⟨_, _, rfl⟩ | ⟨_, _, _, rfl⟩ | ⟨hf, hb, hst, _⟩ := grant_next h
  · exact .inl (.of_silent rfl)
  · exact .inl (.of_silent rfl)
  · exact .inl ⟨[.busRelease], rfl, by simp⟩
  · exact .inr ⟨hf, hb, hst⟩

end

/-- Settles O54: every other event emits no TX_START, and a grant emits one only for a pending request. -/
theorem onlyAGrantStartsAReply : Obligations.OnlyAGrantStartsAReply := by
  intro i s t a hexec hcount
  have hstarts : ¬ StartsNoReply s t := fun h => hcount (h.countAction_eq a)
  induction i using instr_grant_or_event with
  | grant i hi =>
    rw [exec_grant hi] at hexec
    exact ⟨hi, (grant_startsNoReply_or hexec).resolve_left hstarts⟩
  | startWrite => exact absurd (startWrite_startsNoReply hexec) hstarts
  | rxByte b => exact absurd (rxByte_startsNoReply hexec) hstarts
  | finish => exact absurd (finish_startsNoReply hexec) hstarts
  | nack => exact absurd (nack_startsNoReply hexec) hstarts
  | startRead => exact absurd (startRead_startsNoReply hexec) hstarts
  | readReq => exact absurd (readReq_startsNoReply hexec) hstarts
  | txAck => exact absurd (txAck_startsNoReply hexec) hstarts

end Sys2Proof.Machine

namespace Sys2Proof.Machine

open Sys2Proof

/-! SUPPORT. A whole transaction: the state that a request with its FINISH leaves, the reply that BUS_GRANT and the
TX_ACK of each slot send, and the two after one another. -/

/-! ### The parts of a run and of a reply -/

/-- Running instructions, the first of which answers a next state. -/
theorem execAll_cons {i : Instr} {is : List Instr} {s t : State} (h : exec i s = .next t) :
    execAll (i :: is) s = execAll is t := by
  rw [execAll, h]

/-- Past the nine header bytes a reply is its sub-header and its payload (44_responder.md R231). -/
theorem replyImage_drop_header (p : Params) {kind : ReplyKind} (hk : kind ≠ .none) (eid : Byte) (c : Ctx) :
    (replyImage p kind eid c).drop 9 = replyBody p kind eid c := by
  rw [replyImage_eq p hk]
  exact List.drop_left' (replyHeader_length p c _)

/-! ### A request and its FINISH (41_ingestion.md R131, R132, R139) -/

/-- The state after START_WRITE, these bytes and FINISH: the request is pending and its `EID` committed. -/
def State.requested (s : State) (bytes : List Byte) : State :=
  { s.received bytes with
    eid := finishEid Config.params (s.received bytes)
    st := .processRequest
    busReq := true
    output := if s.busReq = true then s.output else s.output ++ [.reqBus] }

theorem execAll_request {s : State} (hf : s.fault = false) (hst : s.st = .idle ∨ s.st = .rx ∨ s.st = .rd)
    (bytes : List Byte) : execAll (receive bytes ++ [.finish]) s = .next (s.requested bytes) := by
  have hfinish : exec .finish (s.received bytes) = .next (s.requested bytes) :=
    finish_receiving Config.params (s := s.received bytes) hf rfl
  rw [execAll_append _ _ _ _ (execAll_receive hf hst bytes), execAll_cons hfinish]
  rfl

/-- No request counts more than ten ports (10_state.md R26, 43_fmapi_commands.md R210). -/
theorem requestCtx_fmNports_le (bytes : List Byte) : (requestCtx bytes).fmNports.toNat ≤ portCap := by
  by_cases h7 : bytes.getD 7 0 = 0x07#8
  · rw [requestCtx_of_fmapi h7]
    refine (requestCount_toNat bytes).trans_le ?_
    split
    · exact Nat.min_le_right _ _
    · exact Nat.zero_le _
  · obtain ⟨_, _, _, _, hcount⟩ := requestCtx_fmapi_clear h7
    rw [hcount]
    exact Nat.zero_le _

/-- The key of a control request holds its command byte and nothing else of it (30_encoding.md R92). -/
theorem requestCtx_key_of_control {bytes : List Byte} (hmt : bytes.getD 7 0 = 0x00#8) :
    (requestCtx bytes).key = 0x00#8 ++ (0x00#8 ++ bytes.getD 9 0) := by
  rw [Ctx.key_of_control ((requestCtx_msgType bytes).trans hmt), requestCtx_of_control hmt]
  rfl

section
variable {bytes : List Byte}

/-- Set Endpoint ID with its EID byte commits it by FINISH: the byte's own step under IMMEDIATE, FINISH otherwise
(42_control_commands.md R171, R172). -/
theorem State.requested_eid_of_setEid (s : State) (hmt : bytes.getD 7 0 = 0x00#8) (hcmd : bytes.getD 9 0 = 0x01#8)
    (hlen : 12 ≤ bytes.length) : (s.requested bytes).eid = bytes.getD 11 0 := by
  have hctx : (s.received bytes).ctx = requestControl bytes := requestCtx_of_control hmt
  change finishEid Config.params (s.received bytes) = _
  cases hp : Config.params.eidCommit with
  | immediate =>
    rw [finishEid, if_neg fun ⟨hat, _⟩ => by rw [hp] at hat; cases hat]
    exact if_pos ⟨hp, hmt, hcmd, hlen⟩
  | atFinish =>
    have hsub : (s.received bytes).ctx.subCtx = .control := by
      rw [Ctx.subCtx, subCtxOf_eq_control_iff, hctx]
      exact hmt
    have hseen : requestArg1Seen bytes = true := decide_eq_true ⟨hcmd, hlen⟩
    rw [finishEid, if_pos ⟨hp, hsub, by rw [hctx]; exact hcmd, by rw [hctx]; exact hseen⟩, hctx]
    exact if_pos hcmd

/-- A control request of another command commits nothing (42_control_commands.md R171, R172). -/
theorem State.requested_eid_of_other (s : State) (hmt : bytes.getD 7 0 = 0x00#8) (hcmd : bytes.getD 9 0 ≠ 0x01#8) :
    (s.requested bytes).eid = s.eid := by
  have hctx : (s.received bytes).ctx = requestControl bytes := requestCtx_of_control hmt
  have hfinish : finishEid Config.params (s.received bytes) = (s.received bytes).eid :=
    if_neg fun ⟨_, _, hset, _⟩ => hcmd (by rw [hctx] at hset; exact hset)
  have hbyte : (s.received bytes).eid = s.eid := if_neg fun ⟨_, _, hset, _⟩ => hcmd hset
  exact hfinish.trans hbyte

end

/-! ### The slots of a reply (44_responder.md R234–R238) -/

section
variable {s : State}

/-- TX_ACK below `TX_LEN` sends and stores the image's byte at `TX_POS` (44_responder.md R236). -/
theorem exec_txAck_dataSlot (hf : s.fault = false) (hst : s.st = .ack) (hlt : s.txPos < s.txLen) {b : Byte}
    (hb : (s.image Config.params)[s.txPos.toNat]? = some b) :
    exec .txAck s = .next
      { s with
        sendbuf := s.sendbuf.write s.txPos.toNat b
        txPos := s.txPos + 1
        output := s.output ++ [.txByte b] } := by
  refine (txAck_sending Config.params hf hst).trans ?_
  rw [ackStep, if_pos hlt, dataSlot, hb]
  rfl

/-- TX_ACK one slot past `TX_LEN` ends the transfer (44_responder.md R238). -/
theorem exec_txAck_terminatorSlot (hf : s.fault = false) (hst : s.st = .ack)
    (hend : s.txPos.toNat = s.txLen.toNat + 1) : exec .txAck s = .next (terminatorSlot s) := by
  have hdata : ¬ s.txPos < s.txLen := by bv_omega
  have hpec : s.txPos ≠ s.txLen := by bv_omega
  have hslot : s.txPos = s.txLen + 1 := by bv_omega
  refine (txAck_sending Config.params hf hst).trans ?_
  rw [ackStep, if_neg hdata, if_neg hpec, if_pos hslot]

/-- `s` after its transaction has ended with `buf` in the send buffer and `sent` as its last outputs. -/
def State.endedWith (s : State) (buf : Memory) (sent : List Action) : State :=
  ({ s with sendbuf := buf, output := s.output ++ sent } : State).endTransaction

/-- The end of a transaction leaves no trace of the reply's registers, only what was sent. -/
theorem State.endedWith_of_sending (s : State) (st : St) (kind : ReplyKind) (txPos txLen : Byte) (buf buf' : Memory)
    (before sent : List Action) :
    ({ s with
        st := st
        replyKind := kind
        txPos := txPos
        txLen := txLen
        sendbuf := buf
        output := s.output ++ before } : State).endedWith buf' sent = s.endedWith buf' (before ++ sent) := by
  simp only [State.endedWith, List.append_assoc]
  rfl

/-- The actions of the slots of an image from some position on: the bytes `rest` that are left, the PEC of the whole
image and the terminator (44_responder.md R236–R238). -/
def slotActions (img rest : List Byte) : List Action :=
  (rest ++ [crc8 img]).map .txByte ++ [.txEnd, .busRelease]

theorem slotActions_cons (img : List Byte) (b : Byte) (rest : List Byte) :
    slotActions img (b :: rest) = .txByte b :: slotActions img rest := rfl

/-- With the whole image sent, two TX_ACK send the PEC and end the transfer. -/
theorem execAll_lastSlots (hf : s.fault = false) (hst : s.st = .ack) (hcount : s.ctx.fmNports.toNat ≤ portCap)
    (hsend : ReplyInProgress s) (hpec : s.txPos = s.txLen) :
    execAll [.txAck, .txAck] s = .next (s.endedWith s.sendbuf (slotActions (s.image Config.params) [])) := by
  have hfirst : exec .txAck s = .next (pecSlot s) := txAck_pecSlot Config.params hf hst hpec
  have hbound : s.txLen.toNat ≤ 185 := hsend.length ▸ replyImage_length_le _ _ _ hcount
  have hend : (s.txPos + 1).toNat = s.txLen.toNat + 1 := by rw [hpec]; bv_omega
  have hsecond : exec .txAck (pecSlot s) = .next (terminatorSlot (pecSlot s)) :=
    exec_txAck_terminatorSlot (s := pecSlot s) hf hst hend
  have himage := hsend.readPrefix_eq_image (by rw [hpec])
  rw [execAll_cons hfirst, execAll_cons hsecond, execAll, State.endedWith, slotActions, ← himage]
  simp [terminatorSlot, pecSlot, State.emit, State.endTransaction, State.clearCtx]

/-- From any slot of the image on, TX_ACK for each byte that is left and two more send the rest of the reply and end
the transaction. -/
theorem execAll_slots {rest : List Byte} (hf : s.fault = false) (hst : s.st = .ack) (hbuf : s.sendbuf.wf = true)
    (hcount : s.ctx.fmNports.toNat ≤ portCap) (hsend : ReplyInProgress s) (hpos : s.txPos.toNat ≤ s.txLen.toNat)
    (hrest : (s.image Config.params).drop s.txPos.toNat = rest) :
    ∃ buf, buf.wf = true ∧ execAll (List.replicate (rest.length + 2) .txAck) s =
      .next (s.endedWith buf (slotActions (s.image Config.params) rest)) := by
  induction rest generalizing s with
  | nil =>
    have hsent : s.txLen.toNat ≤ s.txPos.toNat := hsend.length ▸ List.drop_eq_nil_iff.mp hrest
    have hpec : s.txPos = s.txLen := BitVec.eq_of_toNat_eq (Nat.le_antisymm hpos hsent)
    exact ⟨s.sendbuf, hbuf, execAll_lastSlots hf hst hcount hsend hpec⟩
  | cons b rest ih =>
    have hb : (s.image Config.params)[s.txPos.toNat]? = some b := by
      rw [← List.head?_drop, hrest, List.head?_cons]
    have hlt : s.txPos < s.txLen := by
      obtain ⟨hindex, _⟩ := List.getElem?_eq_some_iff.mp hb
      exact BitVec.lt_def.mpr (hsend.length ▸ hindex)
    have hnext : (s.txPos + 1).toNat = s.txPos.toNat + 1 := by bv_omega
    have hleft : (s.image Config.params).drop (s.txPos + 1).toNat = rest := by
      rw [hnext, ← List.drop_drop, hrest, List.drop_one, List.tail_cons]
    obtain ⟨buf, hwf, hrun⟩ := ih
      (s := { s with
        sendbuf := s.sendbuf.write s.txPos.toNat b
        txPos := s.txPos + 1
        output := s.output ++ [.txByte b] })
      hf hst (State.writeSendbuf_wf hbuf s.txPos b) hcount (hsend.dataSlot hbuf hlt hb _)
      (hnext.trans_le hlt) hleft
    refine ⟨buf, hwf, ?_⟩
    rw [List.length_cons, Nat.add_right_comm, List.replicate_succ, execAll_cons (exec_txAck_dataSlot hf hst hlt hb)]
    exact hrun.trans (congrArg _ (s.endedWith_of_sending ..))

/-- A pending request with its reply started, one byte produced (44_responder.md R233, R234). -/
def State.replyStarted (s : State) (kind : ReplyKind) : State :=
  { s with
    busReq := false
    replyKind := kind
    txLen := BitVec.ofNat 8 (replyImage Config.params kind s.eid s.ctx).length
    output := s.output ++ [.txStart s.ctx.reqAddr7]
    sendbuf := s.sendbuf.write 0 (addressByte s.ctx)
    txPos := 1
    st := .ack }

theorem exec_busGrant_reply (hf : s.fault = false) (hb : s.busReq = true) (hst : s.st = .processRequest)
    {kind : ReplyKind} (hkind : rowReplyKind (decodeKey s.ctx.key) = kind) (hk : kind ≠ .none) :
    exec .busGrant s = .next (s.replyStarted kind) := by
  rw [exec, execBusGrant, hkind, grant_serves Config.params kind hf hb hst, processRequest_reply _ hk]
  rfl

/-- A started reply is in progress, whatever the registers outside it hold (44_responder.md R234, R235). -/
theorem ReplyInProgress.started (hbuf : s.sendbuf.wf = true) (hcount : s.ctx.fmNports.toNat ≤ portCap)
    {kind : ReplyKind} (hk : kind ≠ .none) : ReplyInProgress (s.replyStarted kind) where
  kind := hk
  length := replyImage_length_toNat _ kind _ hcount
  first := Nat.le_refl 1
  last := Nat.le_add_left 1 _
  sent := fun i hi _ => by
    obtain rfl : i = 0 := Nat.lt_one_iff.mp hi
    exact (congrArg some (read_write_same hbuf 0 _)).trans (replyImage_head _ hk _ _).symm

/-- BUS_GRANT and one TX_ACK more than the image has bytes send the whole reply of a pending request
(44_responder.md R239). -/
theorem execAll_reply (hf : s.fault = false) (hb : s.busReq = true) (hst : s.st = .processRequest)
    (hbuf : s.sendbuf.wf = true) (hcount : s.ctx.fmNports.toNat ≤ portCap) {kind : ReplyKind}
    (hkind : rowReplyKind (decodeKey s.ctx.key) = kind) (hk : kind ≠ .none) {img : List Byte}
    (himg : replyImage Config.params kind s.eid s.ctx = img) :
    ∃ buf, buf.wf = true ∧ execAll (.busGrant :: List.replicate (img.length + 1) .txAck) s =
      .next (({ s with busReq := false } : State).endedWith buf
        (.txStart s.ctx.reqAddr7 :: slotActions img img.tail)) := by
  have hsend : ReplyInProgress (s.replyStarted kind) := .started hbuf hcount hk
  have hsome : 0 < img.length := by
    obtain ⟨hlen, _⟩ := List.getElem?_eq_some_iff.mp (himg ▸ replyImage_head Config.params hk s.eid s.ctx)
    exact hlen
  have himage : (s.replyStarted kind).image Config.params = img := himg
  have hpos : (s.replyStarted kind).txPos.toNat ≤ (s.replyStarted kind).txLen.toNat := by
    rw [hsend.length, himage]
    exact hsome
  obtain ⟨buf, hwf, hrun⟩ := execAll_slots (s := s.replyStarted kind) hf rfl (wf_write hbuf (by decide) _) hcount
    hsend hpos List.drop_one
  have hlen : img.tail.length + 2 = img.length + 1 := by rw [List.length_tail]; omega
  rw [himage, hlen] at hrun
  refine ⟨buf, hwf, (execAll_cons (exec_busGrant_reply hf hb hst hkind hk)).trans (hrun.trans ?_)⟩
  exact congrArg _ (State.endedWith_of_sending { s with busReq := false } ..)

/-! ### A whole transaction -/

/-- `t` is `s` after the request of these bytes was served whole: an unfaulted IDLE with no bus request open, the
`EID` the request left, and the actions `sent` after the outputs of the request. -/
structure Served (s : State) (bytes : List Byte) (sent : List Action) (t : State) : Prop where
  fault : t.fault = false
  st : t.st = .idle
  busReq : t.busReq = false
  buffer : t.sendbuf.wf = true
  eid : t.eid = (s.requested bytes).eid
  output : t.output = (s.requested bytes).output ++ sent

/-- A served request leaves the block complete (70_reset_and_hazards.md R299). -/
theorem Served.complete {bytes : List Byte} {sent : List Action} {t : State} (h : Served s bytes sent t) :
    t.complete = true := by
  simp only [State.complete, h.st, h.busReq, h.fault]
  rfl

/-- A request with a reply, served whole: START_WRITE, its bytes, FINISH, BUS_GRANT and one TX_ACK more than its
image has bytes (70_reset_and_hazards.md R301). -/
theorem execAll_transaction (hf : s.fault = false) (hst : s.st = .idle ∨ s.st = .rx ∨ s.st = .rd)
    (hbuf : s.sendbuf.wf = true) (bytes : List Byte) {kind : ReplyKind}
    (hkind : rowReplyKind (decodeKey (requestCtx bytes).key) = kind) (hk : kind ≠ .none) {img : List Byte}
    (himg : replyImage Config.params kind (s.requested bytes).eid (requestCtx bytes) = img) :
    ∃ t, execAll (receive bytes ++ [.finish, .busGrant] ++ List.replicate (img.length + 1) .txAck) s = .next t ∧
      Served s bytes (.txStart (requestCtx bytes).reqAddr7 :: slotActions img img.tail) t := by
  obtain ⟨buf, hwf, hrun⟩ := execAll_reply (s := s.requested bytes) hf rfl rfl hbuf (requestCtx_fmNports_le bytes)
    hkind hk himg
  have hrequest : execAll (receive bytes ++ [.finish, .busGrant] ++ List.replicate (img.length + 1) .txAck) s =
      execAll (.busGrant :: List.replicate (img.length + 1) .txAck) (s.requested bytes) := by
    rw [← execAll_append _ _ _ _ (execAll_request hf hst bytes), List.append_assoc, List.append_assoc]
    rfl
  exact ⟨_, hrequest.trans hrun, ⟨hf, rfl, rfl, hwf, rfl, rfl⟩⟩

end

end Sys2Proof.Machine

namespace Sys2Proof.Machine

open Sys2Proof

/-! CERTIFICATE. The control commands (42_control_commands.md): the bodies RX_BYTE parses, the commit of an `EID`, the
rows without a reply, the bytes of each reply, and Get Endpoint ID after Set Endpoint ID. -/

/-! ### Parsing a body -/

/-- Settles O22: a byte of the body goes to `parseSetEid`, evaluated at positions 10 and 11. -/
theorem setEidParseCommits : Obligations.SetEidParseCommits := by
  intro s b hf hst hmt hcmd
  obtain ⟨_, _, _, hpast⟩ := controlCapture s b hf hst hmt
  have body {n : Nat} (hn : 10 ≤ n) (hpos : s.rxPos.toNat = n) :
      exec (.rxByte b) s = .next
        { parseSetEid Config.params n b { s with rxCrc := crc8Update s.rxCrc b } with
          rxPos := sat16 (s.rxPos.toNat + 1) } := by
    rw [exec_rxByte_control hf hst hmt b (by omega) hpos, captureControl_of_body hn, controlBodyParser, if_pos hcmd]
  exact ⟨fun hpos => body (Nat.le_refl 10) (congrArg BitVec.toNat hpos),
    fun hpos => body (Nat.le_succ 10) (congrArg BitVec.toNat hpos), hpast⟩

/-- Get Version and Get Vendor-Defined-Message Support parse a body alike (42_control_commands.md R176, R179). -/
theorem controlBodyParser_oneByte {cmd : Byte} (h : cmd = 0x04#8 ∨ cmd = 0x06#8) (p : Params) (n : Nat) (b : Byte)
    (s : State) :
    controlBodyParser p cmd n b s = if n = 10 then { s with ctx := { s.ctx with ctlArg0 := b } } else s := by
  obtain rfl | rfl := h <;> rfl

/-- Settles O23: position 10 is the only one either command stores. -/
theorem oneByteBodiesAreStored : Obligations.OneByteBodiesAreStored := by
  intro s b hf hst hmt hcmd
  have body {n : Nat} (hn : 10 ≤ n) (hpos : s.rxPos.toNat = n) :=
    exec_rxByte_control hf hst hmt b (show 8 ≤ n by omega) hpos
  refine ⟨fun hpos => ?_, fun hn => ?_⟩
  · rw [body (Nat.le_refl 10) (congrArg BitVec.toNat hpos), captureControl_of_body (Nat.le_refl 10),
      controlBodyParser_oneByte hcmd, if_pos rfl]
  · rw [body (by omega) rfl, captureControl_of_body (by omega), controlBodyParser_oneByte hcmd, if_neg (by omega)]

/-! ### Requests without a reply -/

/-- Settles O32: each of the five rows serves the reply kind `NONE`. -/
theorem noReplyRowsReleaseTheBus : Obligations.NoReplyRowsReleaseTheBus := by
  intro s low key hf hb hst row hrow
  have hnone : exec row s = grant Config.params .none s := by
    simp only [List.mem_cons, List.not_mem_nil, or_false] at hrow
    obtain rfl | rfl | rfl | rfl | rfl := hrow <;> rfl
  rw [hnone, grant_serves _ _ hf hb hst, processRequest_none]
  rfl

/-! ### The bytes of a reply -/

/-- Settles O42: past the header each image is the body of its kind. -/
theorem controlReplyBytes : Obligations.ControlReplyBytes := by
  intro p eid c
  have body {kind : ReplyKind} (hk : kind ≠ .none) := replyImage_drop_header p hk eid c
  refine ⟨body ?_, body ?_, body ?_, body ?_, body ?_, body ?_⟩ <;> decide

/-! ### The assigned `EID` -/

/-- Settles O29: the request is pending after FINISH, and its commit is behind it under either setting. -/
theorem setEidTakesEffectByFinish : Obligations.SetEidTakesEffectByFinish := by
  intro s bytes hf hst hmt hcmd hlen
  exact ⟨s.requested bytes, execAll_request hf hst bytes, rfl, rfl, s.requested_eid_of_setEid hmt hcmd hlen⟩

/-- The reply to Get Endpoint ID ends with the payload `00 eid 00 00`, the PEC and the terminator
(42_control_commands.md R174). -/
theorem slotActions_getEid (p : Params) (eid : Byte) (c : Ctx) :
    let img := replyImage p .getEid eid c
    ∃ front, slotActions img img.tail =
      front ++ [0x00, eid, 0x00, 0x00, crc8 img].map .txByte ++ [.txEnd, .busRelease] :=
  ⟨((replyHeader p c 15).tail ++ controlSubHeader c).map .txByte, rfl⟩

/-- Settles O39: two transactions of sixteen slots, the first of which leaves IDLE with the new `EID`, the second of
which sends the `EID` it finds. -/
theorem getEidReturnsTheAssignedEid : Obligations.GetEidReturnsTheAssignedEid := by
  intro s set get hf hst hbuf hsetMt hsetCmd hlen hgetMt hgetCmd
  have hsetKind : rowReplyKind (decodeKey (requestCtx set).key) = .setEid := by
    rw [requestCtx_key_of_control hsetMt, hsetCmd]; rfl
  have hgetKind : rowReplyKind (decodeKey (requestCtx get).key) = .getEid := by
    rw [requestCtx_key_of_control hgetMt, hgetCmd]; rfl
  obtain ⟨u, hset, hu⟩ := execAll_transaction hf hst hbuf set hsetKind (by decide) rfl
  have heid : (u.requested get).eid = set.getD 11 0 := calc
    (u.requested get).eid = u.eid := u.requested_eid_of_other hgetMt (by rw [hgetCmd]; decide)
    _ = (s.requested set).eid := hu.eid
    _ = set.getD 11 0 := s.requested_eid_of_setEid hsetMt hsetCmd hlen
  obtain ⟨t, hget, ht⟩ := execAll_transaction hu.fault (.inl hu.st) hu.buffer get hgetKind (by decide)
    (congrArg (replyImage Config.params .getEid · (requestCtx get)) heid)
  obtain ⟨front, hslots⟩ := slotActions_getEid Config.params (set.getD 11 0) (requestCtx get)
  refine ⟨t, (u.requested get).output ++ .txStart (requestCtx get).reqAddr7 :: front,
    crc8 (replyImage Config.params .getEid (set.getD 11 0) (requestCtx get)),
    (execAll_append _ _ _ _ hset).trans hget, ht.complete, ?_⟩
  rw [ht.output, hslots]
  simp only [List.append_assoc, List.cons_append]

end Sys2Proof.Machine

namespace Sys2Proof.Machine

open Sys2Proof

/-! CERTIFICATE. The FM-API Physical Switch commands (43_fmapi_commands.md): the port list RX_BYTE parses, the
sub-header, and the payloads of Identify Switch and Get Physical Port State. -/

/-! ### Parsing the port list (R210, R211) -/

/-- The clamp as a choice between the byte and `PORT_CAP`. -/
theorem clampPorts_eq (b : Byte) : clampPorts b = if b.toNat ≤ 10 then b else 10 := by
  apply BitVec.eq_of_toNat_eq
  rw [clampPorts_toNat]
  split
  · next hle => exact Nat.min_eq_left hle
  · next hgt => exact Nat.min_eq_right (Nat.le_of_not_le hgt)

/-- A port ID below the count goes to its index, which the array has. -/
theorem portStateParser_stores {n i : Nat} {c : Ctx} (hn : n = 21 + i) (hi : i < 10) (hcount : i < c.fmNports.toNat)
    (b : Byte) : portStateParser n b c = { c with ports := c.ports.set i b hi } := by
  have hidx : n - 21 = i := by omega
  rw [portStateParser, if_neg (by omega), hidx, if_pos hcount]
  simp only [Vector.setIfInBounds, Vector.set, Array.setIfInBounds, Vector.size_toArray, hi, dif_pos]

/-- A byte past the last port ID is discarded. -/
theorem portStateParser_discards {n : Nat} {c : Ctx} (hn : 21 + c.fmNports.toNat ≤ n) (b : Byte) :
    portStateParser n b c = c := by
  rw [portStateParser, if_neg (by omega), if_neg (by omega)]

/-- From position 20 on Get Physical Port State parses its body (41_ingestion.md R136). -/
theorem captureFmApi_portState {n : Nat} (hn : 20 ≤ n) {c : Ctx} (hset : c.fmSet = 0x51#8) (hcmd : c.fmCmd = 0x01#8)
    (b : Byte) : captureFmApi n b c = portStateParser n b c := by
  have ne {k : Nat} (hk : k < 20) : n ≠ k := by omega
  have h19 : ¬ n ≤ 19 := by omega
  simp only [captureFmApi, ne, Nat.reduceLT, h19, hset, hcmd, and_self, if_false, if_true]

/-- Settles O25: the body goes to `portStateParser`, at the count, at a port ID below it, and past the last one. -/
theorem portListCapture : Obligations.PortListCapture := by
  intro s b hf hst hmt hset hcmd _
  have body {n : Nat} (hn : 20 ≤ n) (hpos : s.rxPos.toNat = n) :
      exec (.rxByte b) s = .next
        { s with
          rxCrc := crc8Update s.rxCrc b
          rxPos := sat16 (s.rxPos.toNat + 1)
          ctx := portStateParser n b s.ctx } := by
    rw [exec_rxByte_fmapi hf hst hmt b (by omega) hpos, captureFmApi_portState hn hset hcmd]
  refine ⟨fun hpos => ?count, fun i hi hpos hcount => ?portId, fun hpast => ?discarded⟩
  case count => rw [body (Nat.le_refl 20) (congrArg BitVec.toNat hpos), portStateParser, if_pos rfl, clampPorts_eq]
  case portId => rw [body (by omega) rfl, portStateParser_stores hpos hi hcount]
  case discarded => rw [body (by omega) rfl, portStateParser_discards hpast]

/-! ### The sub-header (R201) -/

section
variable {kind : ReplyKind} (hk : kind = .identifySwitch ∨ kind = .getPortState)
include hk

/-- Past the header an FM-API reply is its sub-header and its payload (44_responder.md R231). -/
theorem fmReply_drop_header (p : Params) (eid : Byte) (c : Ctx) :
    (replyImage p kind eid c).drop 9 =
      fmSubHeader c (replyPayload p kind eid c).length ++ replyPayload p kind eid c := by
  have hsome : kind ≠ .none := by rintro rfl; simp at hk
  rw [replyImage_drop_header p hsome, replyBody]
  obtain rfl | rfl := hk <;> rfl

/-- Past the sub-header an FM-API reply is its payload. -/
theorem fmReply_drop_subHeader (p : Params) (eid : Byte) (c : Ctx) :
    (replyImage p kind eid c).drop 21 = replyPayload p kind eid c := calc
  (replyImage p kind eid c).drop 21 = ((replyImage p kind eid c).drop 9).drop 12 := (List.drop_drop (i := 12) (j := 9)).symm
  _ = replyPayload p kind eid c := by
    rw [fmReply_drop_header hk]
    exact List.drop_left' (fmSubHeader_length c _)

end

/-- Settles O43: the sub-header declares the length of what follows it. -/
theorem fmApiSubHeaderBytes : Obligations.FmApiSubHeaderBytes := by
  intro p kind eid c hk
  have hlen : (replyImage p kind eid c).length - 21 = (replyPayload p kind eid c).length := by
    rw [← List.length_drop, fmReply_drop_subHeader hk]
  rw [fmReply_drop_header hk, hlen]
  exact List.take_left' (fmSubHeader_length c _)

/-! ### The masks of Identify Switch (R209) -/

/-- The number whose bits below `k` are those `f` holds of. -/
def bitSum (f : Nat → Prop) [DecidablePred f] (k : Nat) : Nat :=
  ((List.range k).map fun i => if f i then 2 ^ i else 0).sum

section
variable (f : Nat → Prop) [DecidablePred f]

theorem bitSum_succ (k : Nat) : bitSum f (k + 1) = 2 ^ k * (if f k then 1 else 0) + bitSum f k := by
  simp [bitSum, List.range_succ, Nat.add_comm]

theorem bitSum_lt (k : Nat) : bitSum f k < 2 ^ k := by
  induction k with
  | zero => exact Nat.one_pos
  | succ k ih =>
    rw [bitSum_succ, Nat.pow_succ]
    split <;> omega

theorem testBit_bitSum {j k : Nat} (hj : j < k) : (bitSum f k).testBit j = decide (f j) := by
  induction k with
  | zero => exact absurd hj (Nat.not_lt_zero j)
  | succ k ih =>
    rw [bitSum_succ, Nat.testBit_two_pow_mul_add _ (bitSum_lt f k)]
    split
    · next hlt => exact ih hlt
    · have hjk : j = k := by omega
      subst hjk
      by_cases hf : f j <;> simp [hf]

end

/-- Bit `i` of byte `j` is bit `8 j + i` of the mask. -/
theorem maskByte_getLsbD (n j : Nat) {i : Nat} (hi : i < 8) : (maskByte n j).getLsbD i = decide (8 * j + i < n) := calc
  (maskByte n j).getLsbD i = (decide (i < 8) && (bitSum (8 * j + · < n) 8).testBit i) := BitVec.getLsbD_ofNat ..
  _ = decide (8 * j + i < n) := by rw [testBit_bitSum _ hi, decide_eq_true hi, Bool.true_and]

/-- The mask has bit `p` set exactly for `p < n`, wherever it stands before other bytes. -/
theorem mask256_append_bit (n : Nat) (rest : List Byte) {j i : Nat} (hj : j < 32) (hi : i < 8) :
    ((mask256 n ++ rest).getD j 0).getLsbD i = decide (8 * j + i < n) := by
  have hbyte : (mask256 n).getD j 0 = maskByte n j := by simp [mask256, hj]
  rw [List.getD_append _ _ _ _ ((mask256_length n).symm ▸ hj), hbyte, maskByte_getLsbD n j hi]

/-- A byte past the first `k`, which are those of `front`. -/
theorem getD_append_skip {front : List Byte} {k : Nat} (hk : front.length = k) (back : List Byte) (i : Nat) :
    (front ++ back).getD (k + i) 0 = back.getD i 0 := by
  subst hk
  rw [List.getD_append_right _ _ _ _ (Nat.le_add_right _ i), Nat.add_sub_cancel_left]

/-- Settles O44: the four leading bytes, the two masks of 32 bytes and the two counts, one after the other. -/
theorem identifySwitchPayload : Obligations.IdentifySwitchPayload := by
  intro p eid c payload
  have hpayload : payload =
      [p.idIngressPort, 0x00, 0x0A, BitVec.ofNat 8 p.idNumVcs] ++
        (mask256 10 ++ (mask256 p.idNumVcs ++ (le16 p.idTotalVppb ++ le16 p.idBoundVppb))) := by
    rw [show payload = payloadIdentifySwitch p from fmReply_drop_subHeader (.inl rfl) p eid c]
    simp only [payloadIdentifySwitch, numPorts, List.append_assoc, BitVec.ofNat_eq_ofNat]
  rw [hpayload]
  refine ⟨?length, rfl, fun i hi j hj => ⟨?ports, ?vcs⟩, ?counts⟩
  case length => simp
  case ports => rw [getD_append_skip (k := 4) rfl, mask256_append_bit _ _ hi hj]
  case vcs =>
    have hskip : 36 + i = 4 + (32 + i) := by omega
    rw [hskip, getD_append_skip (k := 4) rfl, getD_append_skip (mask256_length 10)]
    exact mask256_append_bit p.idNumVcs _ hi hj
  case counts => rfl

/-! ### The port blocks (R203, R204, R212) -/

theorem portBlock_of_usp (p : Params) {port : Byte} (h : port.toNat < 2) :
    portBlock p port =
      [port, 0b0000#4 ++ p.cfgUsp, 0x00, 0x00, 0x00, 0x02, 0x10, 0x10,
       0x1C, 0x05, 0x05, p.ltssm, 0x00, 0x00, 0x00, 0x00] := by
  rw [portBlock, portClass, if_pos h]

theorem portBlock_of_dsp (p : Params) {port : Byte} (h : 2 ≤ port.toNat) :
    portBlock p port =
      [port, 0b0000#4 ++ p.cfgDsp, 0x02, 0x00, 0x04, 0x02, 0x10, 0x10,
       0x1C, 0x05, 0x05, p.ltssm, 0x00, 0x00, 0x00, 0x03] := by
  rw [portBlock, portClass, if_neg h.not_gt]

/-- Settles O45: the class of the port selects the column. -/
theorem portBlockBytes : Obligations.PortBlockBytes :=
  fun p _ => ⟨portBlock_of_usp p, portBlock_of_dsp p⟩

/-- Each block has sixteen bytes, so block `i` starts at byte `16 i`. -/
theorem flatMap_portBlock_block (p : Params) (ids : List Byte) :
    ∀ (i : Nat) (h : i < ids.length),
      ((ids.flatMap (portBlock p)).drop (16 * i)).take 16 = portBlock p ids[i] := by
  induction ids with
  | nil => intro i h; exact absurd h (Nat.not_lt_zero i)
  | cons port ids ih =>
    intro i h
    rw [List.flatMap_cons]
    cases i with
    | zero => exact List.take_left' (portBlock_length p port)
    | succ i =>
      have hskip : 16 * (i + 1) = (portBlock p port).length + 16 * i := by rw [portBlock_length]; omega
      rw [hskip, List.drop_length_add_append, ih i (Nat.lt_of_succ_lt_succ h)]
      rfl

/-- Settles O46: the blocks are those of the requested ports, each at its own sixteen bytes. -/
theorem portBlocksInRequestOrder : Obligations.PortBlocksInRequestOrder := by
  intro p eid c hc payload
  have hlen := requestedPorts_length hc
  have hpayload : payload = [c.fmNports, 0x00, 0x00, 0x00] ++ (requestedPorts c).flatMap (portBlock p) :=
    fmReply_drop_subHeader (.inr rfl) p eid c
  rw [hpayload]
  refine ⟨?length, rfl, fun i hi hcount => ?block⟩
  case length =>
    rw [List.length_append, flatMap_portBlock_length, hlen]
    rfl
  case block =>
    have hreq : i < (requestedPorts c).length := hlen.symm ▸ hcount
    have hport : (requestedPorts c)[i] = c.ports[i] := by simp [requestedPorts]
    calc (([c.fmNports, 0x00, 0x00, 0x00] ++ (requestedPorts c).flatMap (portBlock p)).drop (4 + 16 * i)).take 16
      _ = (((requestedPorts c).flatMap (portBlock p)).drop (16 * i)).take 16 := by
        rw [Nat.add_comm]; rfl
      _ = portBlock p c.ports[i] := by rw [flatMap_portBlock_block p _ i hreq, hport]

end Sys2Proof.Machine

namespace Sys2Proof.Machine

open Sys2Proof

/-! CERTIFICATE. The Responder (44_responder.md): the rows that start a reply, the slots of ACK, what holds of every
reply image, and the whole reply of a pending request. -/

/-! ### The start of a reply and its slots (R233–R238) -/

/-- Settles O31: each of the eight rows serves its own reply kind, none of them `NONE`. -/
theorem replyRowsStartTheReply : Obligations.ReplyRowsStartTheReply := by
  intro s hf hb hst row hrow
  have hserves : exec row.1 s = grant Config.params row.2 s ∧ row.2 ≠ .none := by
    simp only [List.mem_cons, List.not_mem_nil, or_false] at hrow
    obtain rfl | rfl | rfl | rfl | rfl | rfl | rfl | rfl := hrow <;> exact ⟨rfl, by decide⟩
  obtain ⟨hgrant, hk⟩ := hserves
  rw [hgrant, grant_serves _ _ hf hb hst, processRequest_reply _ hk]
  rfl

/-- Settles O34: the data slot of `ackStep`. -/
theorem dataSlotSendsTheImageByte : Obligations.DataSlotSendsTheImageByte :=
  fun _ _ hf hst hlt hb => exec_txAck_dataSlot hf hst hlt hb

/-- Settles O35: the PEC slot of `ackStep`; the bytes it reads are the entries below `TX_LEN`. -/
theorem pecSlotSendsTheChecksum : Obligations.PecSlotSendsTheChecksum :=
  fun _ hf hst hpec => txAck_pecSlot Config.params hf hst hpec

/-- Settles O36: the terminator slot of `ackStep`; its two actions are appended one after the other. -/
theorem terminatorSlotReleasesTheBus : Obligations.TerminatorSlotReleasesTheBus := by
  intro s hf hst hend
  rw [List.append_cons s.output]
  exact exec_txAck_terminatorSlot hf hst hend

/-! ### The reply image (R232, R235, R241) -/

section
variable (p : Params) {kind : ReplyKind} (hk : kind ≠ .none) (eid : Byte) (c : Ctx)
include hk

theorem replyImage_length :
    (replyImage p kind eid c).length =
      9 + ((replySubHeader kind c (replyPayload p kind eid c).length).length +
        (replyPayload p kind eid c).length) := by
  rw [replyImage_eq p hk, List.length_append, replyHeader_length, replyBody, List.length_append]

/-- The header names the length of the image it begins (44_responder.md R232). -/
theorem replyImage_eq_header_append :
    replyImage p kind eid c = replyHeader p c (replyImage p kind eid c).length ++ replyBody p kind eid c := by
  have hlen : (replyImage p kind eid c).length = 9 + (replyBody p kind eid c).length := by
    rw [replyImage_length p hk, replyBody, List.length_append]
  rw [hlen]
  exact replyImage_eq p hk eid c

theorem replyImage_getD_header {i : Nat} (hi : i < 9) :
    (replyImage p kind eid c).getD i 0 = (replyHeader p c (replyImage p kind eid c).length).getD i 0 :=
  (congrArg (·.getD i 0) (replyImage_eq_header_append p hk eid c)).trans (List.getD_append _ _ _ _ hi)

/-- The byte count with the three bytes it leaves out is the image's length, which fits a byte (44_responder.md
R241). -/
theorem replyImage_byteCount (hc : c.fmNports.toNat ≤ 10) :
    ((replyImage p kind eid c).getD 2 0).toNat + 3 = (replyImage p kind eid c).length := by
  have hbyte : (replyImage p kind eid c).getD 2 0 = BitVec.ofNat 8 ((replyImage p kind eid c).length - 3) :=
    replyImage_getD_header p hk eid c (by decide)
  have hmin := replyImage_length p hk eid c
  have hmax := replyImage_length_le p kind eid hc
  rw [hbyte, BitVec.toNat_ofNat]
  omega

end

/-- Settles O41: the nine bytes of `replyHeader`, its constant bits written out one field after the other. -/
theorem replyHeaderBytes : Obligations.ReplyHeaderBytes := by
  intro p kind eid c hk
  exact (congrArg (·.take 9) (replyImage_eq_header_append p hk eid c)).trans
    (List.take_left' (replyHeader_length p c _))

theorem payloadGetPortState_length (p : Params) {c : Ctx} (hc : c.fmNports.toNat ≤ 10) :
    (payloadGetPortState p c).length = 4 + 16 * c.fmNports.toNat := by
  rw [payloadGetPortState, List.length_append, flatMap_portBlock_length, requestedPorts_length hc]
  rfl

/-- Settles O47: each length is that of the header, the sub-header and the payload of its kind. -/
theorem replyLengths : Obligations.ReplyLengths := by
  intro p eid c hc
  refine ⟨rfl, rfl, ?uuid, rfl, rfl, rfl, ?switch, ?ports, fun kind hk =>
    ⟨replyImage_length_le p kind eid hc, replyImage_byteCount p hk eid c hc⟩⟩
  all_goals rw [replyImage_length p (by decide)]
  case uuid => simp [replySubHeader, replyPayload, payloadGetUuid]
  case switch => simp [replySubHeader, replyPayload, payloadIdentifySwitch]
  case ports =>
    simp only [replySubHeader, replyPayload, fmSubHeader_length, payloadGetPortState_length p hc]
    omega

/-- Only the two decoded message types have a row with a reply (30_encoding.md R93). -/
theorem msgType_of_reply {c : Ctx} (hk : rowReplyKind (decodeKey c.key) ≠ .none) :
    c.msgType = 0x00#8 ∨ c.msgType = 0x07#8 := by
  obtain ⟨_, _, hother⟩ := keySelectsTheRow c
  by_contra hmt
  obtain ⟨h0, h7⟩ := not_or.mp hmt
  exact hk (by rw [hother h0 h7]; rfl)

/-- The three bytes of a 20-bit field, least significant first (43_fmapi_commands.md R201). -/
theorem le20_toNat (v : BitVec 20) :
    (v.extractLsb' 0 8).toNat + (v.extractLsb' 8 8).toNat * 256 +
      (0b0000#4 ++ v.extractLsb' 16 4).toNat * 65536 = v.toNat := by
  have hv := v.isLt
  have hpad : (0b0000#4 ++ v.extractLsb' 16 4).toNat = (v.extractLsb' 16 4).toNat := by
    rw [BitVec.toNat_append]
    exact Nat.zero_or _
  rw [hpad]
  simp only [BitVec.extractLsb'_toNat, Nat.shiftRight_eq_div_pow]
  omega

/-- The payload length a Get Physical Port State reply declares is that of the ports it counts (43_fmapi_commands.md
R212). -/
theorem getPortState_declares_length (p : Params) (eid : Byte) {c : Ctx} (hc : c.fmNports.toNat ≤ 10) :
    let img := replyImage p .getPortState eid c
    (img.getD 14 0).toNat + (img.getD 15 0).toNat * 256 + (img.getD 16 0).toNat * 65536 =
      4 + 16 * (img.getD 21 0).toNat := by
  refine (le20_toNat (BitVec.ofNat 20 (payloadGetPortState p c).length)).trans ?_
  rw [payloadGetPortState_length p hc, BitVec.toNat_ofNat]
  exact Nat.mod_eq_of_lt (by omega)

/-- Settles O48: the header's bytes, the CRC of a sequence with its own CRC, and the declared payload length. -/
theorem replyImageInvariants : Obligations.ReplyImageInvariants := by
  intro p eid c hc kind img hk
  have header {i : Nat} := replyImage_getD_header p hk eid c (i := i)
  refine ⟨replyImage_byteCount p hk eid c hc, header (by decide), msgType_of_reply hk, header (by decide),
    header (by decide), crc8_append_crc8 img, fun hports => ?_⟩
  have himg : img = replyImage p .getPortState eid c := congrArg (replyImage p · eid c) hports
  rw [himg]
  exact getPortState_declares_length p eid hc

/-! ### The whole reply (R239) -/

/-- Settles O38: BUS_GRANT and the slots of the image, as `execAll_reply` runs them. -/
theorem wholeReplyIsSent : Obligations.WholeReplyIsSent := by
  intro s hf hb hst hcount hbuf hk img
  obtain ⟨buf, _, hrun⟩ := execAll_reply hf hb hst hbuf hcount rfl hk (img := img) rfl
  refine ⟨_, hrun, ?output, rfl, rfl, ?complete⟩
  case output =>
    simp only [List.append_assoc]
    rfl
  case complete =>
    simp only [State.complete, State.endedWith, State.endTransaction_fault, hf]
    rfl

end Sys2Proof.Machine

namespace Sys2Proof.Machine

open Sys2Proof

/-! CERTIFICATE. Identical requests get identical replies (44_responder.md R242): two blocks that may differ in their
send buffers run in step from BUS_GRANT on, since each reads back only what this reply has stored. -/

/-! ### What a reply depends on -/

/-- The registers a reply depends on: all but `FAULT_CODE`, the send buffer and the fields of the model's own. -/
def State.replyView (s : State) : State :=
  { s with faultCode := .none, sendbuf := [], input := [], output := [], draws := 0 }

/-- The part of the invariant that TX_ACK needs. -/
structure Answering (s : State) : Prop where
  buffer : s.sendbuf.wf = true
  count : s.ctx.fmNports.toNat ≤ portCap
  sending : s.st = .ack → ReplyInProgress s

/-- What TX_ACK emits: nothing outside ACK, else the action of the slot, the PEC being that of the image. -/
def ackActions (p : Params) (s : State) : List Action :=
  if s.fault = true ∨ s.st ≠ .ack then []
  else if s.txPos < s.txLen then [.txByte ((s.image p).getD s.txPos.toNat 0)]
  else if s.txPos = s.txLen then [.txByte (crc8 (s.image p))]
  else [.txEnd, .busRelease]

theorem ackActions_replyView (p : Params) (s : State) : ackActions p s.replyView = ackActions p s := rfl

/-- The registers of a reply after TX_ACK. -/
def ackView (s : State) : State :=
  if s.fault = true then s
  else if s.st ≠ .ack then { s with fault := true }
  else if s.txPos < s.txLen ∨ s.txPos = s.txLen then { s with txPos := s.txPos + 1 }
  else s.endTransaction

section
variable {s t : State}

theorem Answering.afterTxAck (h : Answering s) (hexec : txAck Config.params s = .next t) : Answering t := by
  obtain ⟨_, rfl⟩ | ⟨_, hst, rfl⟩ | ⟨_, hst, hlt, b, hb, rfl⟩ | ⟨_, hst, heq, rfl⟩ | ⟨_, _, _, _, _, rfl⟩ :=
    txAck_next hexec
  · exact h
  · exact ⟨h.buffer, h.count, fun hack => absurd hack hst⟩
  · exact ⟨State.writeSendbuf_wf h.buffer s.txPos b, h.count,
      fun _ => (h.sending hst).dataSlot h.buffer hlt hb _⟩
  · exact ⟨h.buffer, h.count, fun _ => (h.sending hst).pecSlot h.count heq _⟩
  · exact ⟨h.buffer, Nat.zero_le _, fun hack => by cases hack⟩

/-- TX_ACK acts by the registers of the reply alone: in the PEC slot the buffer holds the image. -/
theorem Answering.txAck_by_view (h : Answering s) (hexec : txAck Config.params s = .next t) :
    t.output = s.output ++ ackActions Config.params s.replyView ∧ t.replyView = ackView s.replyView := by
  rw [ackActions_replyView]
  obtain ⟨hf, rfl⟩ | ⟨hf, hst, rfl⟩ | ⟨hf, hst, hlt, b, hb, rfl⟩ | ⟨hf, hst, heq, rfl⟩ |
      ⟨hf, hst, hdata, hpec, _, rfl⟩ := txAck_next hexec
  · simp [ackActions, ackView, State.replyView, hf]
  · simp [ackActions, ackView, State.replyView, State.raiseFault, hf, hst]
  · simp [ackActions, ackView, State.replyView, hf, hst, hlt, hb, State.emit, State.writeSendbuf]
  · have himage := (h.sending hst).readPrefix_eq_image (by rw [heq])
    simp [ackActions, ackView, State.replyView, hf, hst, heq, himage, pecSlot, State.emit]
  · simp [ackActions, ackView, State.replyView, hf, hst, hdata, hpec, terminatorSlot, State.emit,
      State.endTransaction, State.clearCtx]

end

/-! ### Two blocks in step -/

/-- Two blocks whose registers decide the same replies. -/
structure SameReply (s t : State) : Prop where
  view : s.replyView = t.replyView
  left : Answering s
  right : Answering t

/-- Two blocks that run the same instructions with the same actions, and end with the same replies to send. -/
def InStep (is : List Instr) (s t : State) : Prop :=
  ∃ s' t' acts, execAll is s = .next s' ∧ execAll is t = .next t' ∧
    s'.output = s.output ++ acts ∧ t'.output = t.output ++ acts ∧ SameReply s' t'

section
variable {s t : State}

/-- A register the replies depend on is the same in both blocks. -/
theorem SameReply.register {α : Type} (h : SameReply s t) (f : State → α)
    (hf : ∀ u : State, f u.replyView = f u) : f s = f t := by
  rw [← hf s, h.view, hf t]

/-- Two blocks in step after instructions that both ran with the same actions. -/
theorem InStep.after {is js : List Instr} {s' t' : State} {acts : List Action} (hs : execAll is s = .next s')
    (ht : execAll is t = .next t') (hsout : s'.output = s.output ++ acts) (htout : t'.output = t.output ++ acts)
    (h : InStep js s' t') : InStep (is ++ js) s t := by
  obtain ⟨u, v, more, hu, hv, huout, hvout, hsame⟩ := h
  refine ⟨u, v, acts ++ more, (execAll_append _ _ _ _ hs).trans hu, (execAll_append _ _ _ _ ht).trans hv,
    ?_, ?_, hsame⟩
  · rw [huout, hsout, List.append_assoc]
  · rw [hvout, htout, List.append_assoc]

theorem InStep.append {is js : List Instr} (h : InStep is s t)
    (hnext : ∀ {s' t' : State}, SameReply s' t' → InStep js s' t') : InStep (is ++ js) s t := by
  obtain ⟨s', t', acts, hs, ht, hsout, htout, hsame⟩ := h
  exact .after hs ht hsout htout (hnext hsame)

theorem SameReply.txAck (h : SameReply s t) : InStep [.txAck] s t := by
  obtain ⟨s', hs⟩ := txAck_answers h.left.sending
  obtain ⟨t', ht⟩ := txAck_answers h.right.sending
  obtain ⟨hsout, hsview⟩ := h.left.txAck_by_view hs
  obtain ⟨htout, htview⟩ := h.right.txAck_by_view ht
  rw [← h.view] at htout htview
  exact ⟨s', t', _, execAll_cons hs, execAll_cons ht, hsout, htout,
    hsview.trans htview.symm, h.left.afterTxAck hs, h.right.afterTxAck ht⟩

theorem SameReply.txAcks (h : SameReply s t) (n : Nat) : InStep (List.replicate n .txAck) s t := by
  induction n generalizing s t with
  | zero => exact ⟨s, t, [], rfl, rfl, (List.append_nil _).symm, (List.append_nil _).symm, h⟩
  | succ n ih => exact h.txAck.append fun hsame => ih hsame

/-! ### The request and its grant -/

/-- A pending request, served: dropped, or its reply started (44_responder.md R233, R234). -/
def State.granted (s : State) : State :=
  processRequest Config.params (rowReplyKind (decodeKey s.ctx.key)) { s with busReq := false }

/-- What a served request emits. -/
def grantActions (c : Ctx) : List Action :=
  if rowReplyKind (decodeKey c.key) = .none then [.busRelease] else [.txStart c.reqAddr7]

theorem exec_busGrant_pending (hf : s.fault = false) (hb : s.busReq = true) (hst : s.st = .processRequest) :
    exec .busGrant s = .next s.granted :=
  grant_serves Config.params _ hf hb hst

theorem State.granted_of_none (hk : rowReplyKind (decodeKey s.ctx.key) = .none) :
    s.granted = (({ s with busReq := false } : State).emit .busRelease).endTransaction := by
  rw [State.granted, hk, processRequest_none]
  rfl

theorem State.granted_of_reply (hk : rowReplyKind (decodeKey s.ctx.key) ≠ .none) :
    s.granted = s.replyStarted (rowReplyKind (decodeKey s.ctx.key)) :=
  processRequest_reply _ hk _

theorem State.granted_output (s : State) : s.granted.output = s.output ++ grantActions s.ctx := by
  by_cases hk : rowReplyKind (decodeKey s.ctx.key) = .none
  · rw [State.granted_of_none hk, grantActions, if_pos hk]
    rfl
  · rw [State.granted_of_reply hk, grantActions, if_neg hk]
    rfl

/-- Serving a request acts by the registers of the reply alone. -/
theorem State.granted_view (s : State) : s.granted.replyView = s.replyView.granted.replyView := by
  by_cases hk : rowReplyKind (decodeKey s.ctx.key) = .none
  · rw [State.granted_of_none hk, State.granted_of_none (s := s.replyView) hk]
    rfl
  · rw [State.granted_of_reply hk, State.granted_of_reply (s := s.replyView) hk]
    rfl

theorem Answering.granted (h : Answering s) : Answering s.granted := by
  by_cases hk : rowReplyKind (decodeKey s.ctx.key) = .none
  · rw [State.granted_of_none hk]
    exact ⟨h.buffer, Nat.zero_le _, fun hack => by cases hack⟩
  · rw [State.granted_of_reply hk]
    exact ⟨wf_write h.buffer (by decide) _, h.count, fun _ => .started h.buffer h.count hk⟩

theorem SameReply.busGrant (h : SameReply s t) (hf : s.fault = false) (hb : s.busReq = true)
    (hst : s.st = .processRequest) : InStep [.busGrant] s t := by
  have hctx : s.ctx = t.ctx := h.register State.ctx fun _ => rfl
  have hfault : s.fault = t.fault := h.register State.fault fun _ => rfl
  have hbusReq : s.busReq = t.busReq := h.register State.busReq fun _ => rfl
  have hstate : s.st = t.st := h.register State.st fun _ => rfl
  have hs : exec .busGrant s = .next s.granted := exec_busGrant_pending hf hb hst
  have ht : exec .busGrant t = .next t.granted :=
    exec_busGrant_pending (hfault ▸ hf) (hbusReq ▸ hb) (hstate ▸ hst)
  have hview : s.granted.replyView = t.granted.replyView := by
    rw [State.granted_view, h.view, ← State.granted_view]
  exact ⟨_, _, _, execAll_cons hs, execAll_cons ht, s.granted_output, hctx ▸ t.granted_output,
    hview, h.left.granted, h.right.granted⟩

theorem State.requested_eid_congr (heid : s.eid = t.eid) (bytes : List Byte) :
    (s.requested bytes).eid = (t.requested bytes).eid :=
  congrArg (fun eid => finishEid Config.params
    { s.received bytes with eid := requestEid Config.params eid bytes }) heid

/-- A pending request depends on the `EID` the block had, its fault and the bytes, and on nothing else. -/
theorem SameReply.requested (hf : s.fault = t.fault) (heid : s.eid = t.eid) (hs : s.sendbuf.wf = true)
    (ht : t.sendbuf.wf = true) (bytes : List Byte) : SameReply (s.requested bytes) (t.requested bytes) where
  view := by
    have hparts : (s.requested bytes).replyView =
        { (t.requested bytes).replyView with eid := (s.requested bytes).eid, fault := s.fault } := rfl
    rw [hparts, State.requested_eid_congr heid, hf]
    rfl
  left := ⟨hs, requestCtx_fmNports_le bytes, fun hack => by cases hack⟩
  right := ⟨ht, requestCtx_fmNports_le bytes, fun hack => by cases hack⟩

/-- FINISH asks for the bus unless a request is outstanding already (41_ingestion.md R139). -/
theorem State.requested_output (s : State) (bytes : List Byte) :
    (s.requested bytes).output = s.output ++ if s.busReq = true then [] else [.reqBus] := by
  cases hb : s.busReq <;> simp [State.requested, hb]

end

/-- Settles O40: after FINISH both blocks hold the same pending request, and are in step from there on. -/
theorem identicalRequestsGetIdenticalReplies : Obligations.IdenticalRequestsGetIdenticalReplies := by
  intro s1 s2 bytes n hf1 hf2 heid hb hst1 hst2 hbuf1 hbuf2 run
  have hsame : SameReply (s1.requested bytes) (s2.requested bytes) :=
    .requested (hf1.trans hf2.symm) heid hbuf1 hbuf2 bytes
  have hgrant : InStep [.busGrant] (s1.requested bytes) (s2.requested bytes) := hsame.busGrant hf1 rfl rfl
  have hrun : InStep ((receive bytes ++ [.finish]) ++ ([.busGrant] ++ List.replicate n .txAck)) s1 s2 :=
    .after (execAll_request hf1 hst1 bytes) (execAll_request hf2 hst2 bytes) (s1.requested_output bytes)
      (hb ▸ s2.requested_output bytes) (hgrant.append fun hsame => hsame.txAcks n)
  have hparts : run = (receive bytes ++ [.finish]) ++ ([.busGrant] ++ List.replicate n .txAck) := by
    simp [run]
  obtain ⟨t1, t2, acts, h1, h2, hout1, hout2, hend⟩ := hparts ▸ hrun
  exact ⟨t1, t2, acts, h1, h2, hout1, hout2, hend.register State.eid fun _ => rfl⟩

end Sys2Proof.Machine

namespace Sys2Proof.Machine

open Sys2Proof

/-! CERTIFICATE. Faults (60_exceptions.md): an illegal event raises its own fault and does nothing else, a legal one
raises none. -/

section
variable {s t : State}

/-! ### The fault table (60_exceptions.md R262) -/

/-- A request row has the entry of the BUS_GRANT it is (notes/assumptions/3.md). -/
theorem hostFault_grant {i : Instr} (hi : i.isGrant = true) (s : State) :
    hostFault i s = if s.busReq = true then none else some .grantUnrequested := by
  cases i with
  | startWrite | rxByte | finish | nack | startRead | readReq | txAck => cases hi
  | _ => rfl

/-! ### Illegal events (60_exceptions.md R264) -/

theorem rxByte_outside (p : Params) (b : Byte) (hf : s.fault = false) (hst : s.st ≠ .rx) :
    rxByte p b s = .next (s.raiseFault .rxOutside) := by
  rw [rxByte, guarded_sound hf, if_neg hst]

theorem txAck_outside (p : Params) (hf : s.fault = false) (hst : s.st ≠ .ack) :
    txAck p s = .next (s.raiseFault .ackOutside) := by
  rw [txAck, guarded_sound hf, if_neg hst]

/-- The event does what the fault entry does, with the code of its table row. -/
theorem exec_of_hostFault {i : Instr} {code : FaultCode} (hf : s.fault = false) (hcode : hostFault i s = some code) :
    exec i s = .next (s.raiseFault code) := by
  induction i using instr_grant_or_event with
  | grant i hi =>
    rw [hostFault_grant hi] at hcode
    obtain ⟨hb, ⟨⟩⟩ := Option.ite_none_left_eq_some.mp hcode
    rw [exec_grant hi]
    exact grant_unrequested _ _ hf (Bool.eq_false_iff.mpr hb)
  | startWrite =>
    obtain ⟨hst, ⟨⟩⟩ := Option.ite_none_right_eq_some.mp hcode
    exact execStartWrite_busy hf hst
  | rxByte b =>
    obtain ⟨hst, ⟨⟩⟩ := Option.ite_none_left_eq_some.mp hcode
    exact rxByte_outside _ b hf hst
  | finish =>
    obtain ⟨hst, ⟨⟩⟩ := Option.ite_none_right_eq_some.mp hcode
    exact finish_busy _ hf hst
  | nack => cases hcode
  | startRead =>
    obtain ⟨hst, ⟨⟩⟩ := Option.ite_none_right_eq_some.mp hcode
    exact execStartRead_busy hf hst
  | readReq =>
    obtain ⟨hst, ⟨⟩⟩ := Option.ite_none_left_eq_some.mp hcode
    exact execReadReq_outside hf hst
  | txAck =>
    obtain ⟨hst, ⟨⟩⟩ := Option.ite_none_left_eq_some.mp hcode
    exact txAck_outside _ hf hst

/-! ### Legal events (60_exceptions.md R263) -/

/-- `FAULT` and `FAULT_CODE` are as before. -/
def KeepsFault (s t : State) : Prop := t.fault = s.fault ∧ t.faultCode = s.faultCode

theorem processRequest_keepsFault (p : Params) (kind : ReplyKind) (s : State) :
    KeepsFault s (processRequest p kind s) := by
  by_cases hk : kind = .none
  · subst hk; exact ⟨rfl, rfl⟩
  · rw [processRequest_reply p hk]; exact ⟨rfl, rfl⟩

theorem grant_keepsFault {p : Params} {kind : ReplyKind} (hb : s.busReq = true) (h : grant p kind s = .next t) :
    KeepsFault s t := by
  obtain ⟨_, rfl⟩ | ⟨_, hno, _⟩ | ⟨_, _, _, rfl⟩ | ⟨_, _, _, rfl⟩ := grant_next h
  · exact ⟨rfl, rfl⟩
  · simp [hb] at hno
  · exact ⟨rfl, rfl⟩
  · exact processRequest_keepsFault p kind _

theorem startWrite_keepsFault (hst : ¬ (s.st = .processRequest ∨ s.st = .ack)) (h : execStartWrite s = .next t) :
    KeepsFault s t := by
  obtain ⟨_, rfl⟩ | ⟨_, _, rfl⟩ | ⟨_, hbusy, _⟩ := startWrite_next h
  · exact ⟨rfl, rfl⟩
  · exact ⟨rfl, rfl⟩
  · exact absurd hbusy hst

theorem startRead_keepsFault (hst : ¬ (s.st = .processRequest ∨ s.st = .ack)) (h : execStartRead s = .next t) :
    KeepsFault s t := by
  obtain ⟨_, rfl⟩ | ⟨_, _, rfl⟩ | ⟨_, hbusy, _⟩ := startRead_next h
  · exact ⟨rfl, rfl⟩
  · exact ⟨rfl, rfl⟩
  · exact absurd hbusy hst

theorem rxByte_keepsFault {p : Params} {b : Byte} (hst : s.st = .rx) (h : rxByte p b s = .next t) :
    KeepsFault s t := by
  obtain ⟨_, rfl⟩ | ⟨_, _, rfl⟩ | ⟨_, hout, _⟩ := rxByte_next h
  · exact ⟨rfl, rfl⟩
  · exact ⟨capture_fault .., capture_faultCode ..⟩
  · exact absurd hst hout

theorem finish_keepsFault {p : Params} (hst : ¬ (s.st = .processRequest ∨ s.st = .ack))
    (h : finish p s = .next t) : KeepsFault s t := by
  obtain ⟨_, rfl⟩ | ⟨_, _, rfl⟩ | ⟨_, _, rfl⟩ | ⟨_, hbusy, _⟩ := finish_next h
  · exact ⟨rfl, rfl⟩
  · exact ⟨rfl, rfl⟩
  · exact ⟨rfl, rfl⟩
  · exact absurd hbusy hst

/-- NACK is legal in every state (41_ingestion.md R141). -/
theorem nack_keepsFault (h : execNack s = .next t) : KeepsFault s t := by
  obtain ⟨_, rfl⟩ | ⟨_, _, rfl⟩ | ⟨_, _, rfl⟩ | ⟨_, _, rfl⟩ := nack_next h <;> exact ⟨rfl, rfl⟩

theorem readReq_keepsFault (hst : s.st = .rd) (h : execReadReq s = .next t) : KeepsFault s t := by
  obtain ⟨_, rfl⟩ | ⟨_, _, rfl⟩ | ⟨_, hout, _⟩ := readReq_next h
  · exact ⟨rfl, rfl⟩
  · exact ⟨rfl, rfl⟩
  · exact absurd hst hout

theorem txAck_keepsFault {p : Params} (hst : s.st = .ack) (h : txAck p s = .next t) : KeepsFault s t := by
  obtain ⟨_, rfl⟩ | ⟨_, hout, _⟩ | ⟨_, _, _, _, _, rfl⟩ | ⟨_, _, _, rfl⟩ | ⟨_, _, _, _, _, rfl⟩ := txAck_next h
  case inr.inl => exact absurd hst hout
  all_goals exact ⟨rfl, rfl⟩

/-- Where the table names no code, an event answers no state with another fault. -/
theorem exec_keepsFault {i : Instr} (hlegal : hostFault i s = none) (hexec : exec i s = .next t) :
    KeepsFault s t := by
  induction i using instr_grant_or_event with
  | grant i hi =>
    rw [hostFault_grant hi] at hlegal
    rw [exec_grant hi] at hexec
    exact grant_keepsFault (by simpa using hlegal) hexec
  | startWrite => exact startWrite_keepsFault (by simpa [hostFault] using hlegal) hexec
  | rxByte b => exact rxByte_keepsFault (by simpa [hostFault] using hlegal) hexec
  | finish => exact finish_keepsFault (by simpa [hostFault] using hlegal) hexec
  | nack => exact nack_keepsFault hexec
  | startRead => exact startRead_keepsFault (by simpa [hostFault] using hlegal) hexec
  | readReq => exact readReq_keepsFault (by simpa [hostFault] using hlegal) hexec
  | txAck => exact txAck_keepsFault (by simpa [hostFault] using hlegal) hexec

end

/-- Settles O12: an illegal event is the fault entry alone, a legal one leaves the two fault registers. -/
theorem faultEntryIsPrecise : Obligations.FaultEntryIsPrecise := by
  intro i s hf
  refine ⟨fun code hcode => exec_of_hostFault hf hcode, fun hlegal t hexec => ?_⟩
  obtain ⟨hfault, hcode⟩ := exec_keepsFault hlegal hexec
  exact ⟨hfault.trans hf, hcode⟩

end Sys2Proof.Machine

namespace Sys2Proof.Machine

open Sys2Proof

/-! CERTIFICATE. Reset and hazards (70_reset_and_hazards.md): a parked block, a reset, the reset values, and what of a
block's past reaches the request it reconstructs. -/

section
variable {s t : State}

/-! ### What a request depends on (R300) -/

/-- The `EID` after the bytes of a request depends on the block only through the `EID` before them. -/
theorem State.received_eid_congr (heid : s.eid = t.eid) (bytes : List Byte) :
    (s.received bytes).eid = (t.received bytes).eid :=
  congrArg (requestEid Config.params · bytes) heid

/-! ### The steps that take no event (R291, R298) -/

theorem step_parked (h : s.input = []) : step s = .next s := by
  simp only [step, State.fetch, h]

theorem step_reset {rest : List Stimulus} (h : s.input = .reset :: rest) :
    step s = .next ({ s with input := rest } : State).takeReset := by
  simp only [step, State.fetch, h]

end

/-- Settles O30: START_WRITE and the bytes leave `State.received`, whose request registers are functions of the bytes,
and whose `EID` is one of the bytes and the `EID` before. -/
theorem staleStateDoesNotReachTheRequest : Obligations.StaleStateDoesNotReachTheRequest := by
  intro s1 s2 bytes hf1 hf2 heid hst1 hst2
  have hrun1 : execAll (receive bytes) s1 = .next (s1.received bytes) := execAll_receive hf1 hst1 bytes
  have hrun2 : execAll (receive bytes) s2 = .next (s2.received bytes) := execAll_receive hf2 hst2 bytes
  exact ⟨_, _, hrun1, hrun2, rfl, rfl, rfl, State.received_eid_congr heid bytes, rfl, rfl, rfl⟩

/-- Settles O8: with nothing delivered the step finds nothing to take. -/
theorem parkedBlockHoldsItsState : Obligations.ParkedBlockHoldsItsState :=
  fun _ => step_parked

/-- Settles O9: the step answers `State.takeReset` of the state without the reset's entry, whatever `FAULT` holds. -/
theorem resetStepRestoresEveryRegister : Obligations.ResetStepRestoresEveryRegister :=
  fun _ _ => step_reset

/-! ### The reset values (R290) -/

theorem Ctx.cleared_ports (i : Nat) (h : i < 10) : Ctx.cleared.ports[i] = 0 :=
  Vector.getElem_replicate h

/-- Settles O10: the registers are those of `State.reset`, the port list and the send buffer read 0 at every index. -/
theorem resetValues : Obligations.ResetValues := by
  refine ⟨?header, ?control, ?fmapi, Ctx.cleared_ports, ?registers⟩
  case header => exact ⟨rfl, rfl, rfl, rfl, rfl, rfl, rfl, rfl⟩
  case control => exact ⟨rfl, rfl, rfl, rfl, rfl⟩
  case fmapi => exact ⟨rfl, rfl, rfl, rfl, rfl⟩
  case registers => exact ⟨rfl, rfl, rfl, rfl, rfl, rfl, rfl, rfl, rfl, rfl, MemoryLaws.read_nil⟩

end Sys2Proof.Machine
